-- ==== Sys2Proof/Word.lean ====
section
/-! DEFINITION. The word of the ES51986 frame decoder, one 8-bit byte (spec R9, R43), and the three
constants the spec fixes: the frame length (R5) and the two terminator bytes (R6). -/

namespace Sys2Proof

/-- R43: the input of one step is one byte, 8 bits, 0x00 to 0xFF. -/
abbrev Byte := BitVec 8

/-- R5: a frame is exactly 9 bytes, and the buffer of the stream framer holds at most as many. -/
def FRAME_LEN : Nat := 9

/-- R6: carriage return, a terminator byte. -/
def CR : Byte := 0x0D#8

/-- R6: line feed, the other terminator byte. -/
def LF : Byte := 0x0A#8

end Sys2Proof
end

