-- ==== Sys2Proof/Syntax.lean ====
section
/-! DEFINITION. The data types of the block (spec R18 to R26), the input formats of its opcode table
(`Slot`), and `Instr`: one constructor for each of the 38 rows of spec/opcode_table.json (R62). -/

namespace Sys2Proof

/-- R20: the seven range codes. -/
inductive RangeCode where
  | range0 | range1 | range2 | range3 | range4 | range5 | range6
  deriving DecidableEq, Repr

/-- R21: the fifteen function codes, in the spec's order (index 0 to 14). -/
inductive FunctionCode where
  | voltage | microAmpere | milliAmpere | autoAmpere | manualAmpere | ohm | continuity | diode
  | frequency | capacitor | temperature | adp0 | adp1 | adp2 | adp3
  deriving DecidableEq, Repr

/-- R9, R22: a decimal digit, 0 to 9. -/
abbrev Digit := Fin 10

/-- R22: four digits; `d0` comes from frame byte 1 and is the most significant. -/
structure DigitGroup where
  d0 : Digit
  d1 : Digit
  d2 : Digit
  d3 : Digit
  deriving DecidableEq, Repr

/-- R23: the temperature unit a status byte selects. -/
inductive TempUnit where
  | celsius | fahrenheit
  deriving DecidableEq, Repr

/-- R23: the sign is a two-valued tagged type, not a raw Boolean. -/
inductive Sign where
  | positive | negative
  deriving DecidableEq, Repr

/-- R23: the four status fields of a Record. -/
structure StatusFlags where
  tempUnit : TempUnit
  sign : Sign
  batteryLow : Bool
  overflow : Bool
  deriving DecidableEq, Repr

/-- R24: the three option fields of a Record; every combination is representable. -/
structure OptionFlags where
  dc : Bool
  ac : Bool
  auto : Bool
  deriving DecidableEq, Repr

/-- R19: a decoded frame. It has exactly these five fields; frame byte 7 is not part of it. -/
structure Record where
  range : RangeCode
  digits : DigitGroup
  function : FunctionCode
  status : StatusFlags
  option : OptionFlags
  deriving DecidableEq, Repr

/-- R25, R111: the four error kinds. Errors are values in an outcome, never traps (R113). -/
inductive FrameError where
  /-- A boundary met a buffer whose length is not 9, or the buffer overflowed; `len` is the observed length. -/
  | lengthError (len : Nat)
  /-- Frame byte 0 is outside 0x30..0x36. -/
  | invalidRange (b : Byte)
  /-- Frame byte 5 is outside the function table's domain. -/
  | invalidFunction (b : Byte)
  /-- The first of frame bytes 1 to 4 that is outside 0x30..0x39. -/
  | invalidDigit (b : Byte)
  deriving DecidableEq, Repr

/-- R18: the one outcome of a step: no output, a Record, or an error. -/
inductive StepOutcome where
  | none
  | ok (r : Record)
  | err (e : FrameError)
  deriving DecidableEq, Repr

/-- R26, R81: where the decimal point goes. -/
inductive Placement where
  | zero | minus1 | minus2 | minus3
  deriving DecidableEq, Repr

/-- R26: the metric scale of a unit, in the spec's order; `noScale` is the spec's `NoPrefix`. -/
inductive MetricScale where
  | mega | kilo | noScale | milli | micro | nano
  deriving DecidableEq, Repr

/-- R26: the base units, in the spec's order. -/
inductive BaseUnit where
  | ampere | volt | ohm | hertz | farad
  deriving DecidableEq, Repr

/-- R26: a pair of a metric scale and a base unit. -/
structure UnitDescriptor where
  scale : MetricScale
  base : BaseUnit
  deriving DecidableEq, Repr

/-- R26: a resolved reading, a decimal string (as its characters) and its unit. -/
structure MeasurementValue where
  text : List Char
  unit : UnitDescriptor
  deriving DecidableEq, Repr

/-- R14: the framer's state register. -/
inductive FramerState where
  | idle | afterCr
  deriving DecidableEq, Repr

/-- The formats of the opcode table (its column `format`; R44, R45, R62): the byte stream of the framer, and
the six kinds of frame byte. The same byte means different rows in different formats, so a byte is decoded
in its format. -/
inductive Slot where
  | stream | range | digit | function | status | unused | option
  deriving DecidableEq, Repr

/-- One constructor per row of spec/opcode_table.json, in the table's order. A row whose mask leaves bits
free carries its byte: R44 (`FEED_DATA`), R70 (`STATUS`), R52 (`UNUSED_BYTE7`), R71 (`OPTION`). -/
inductive Instr where
  | feedCr
  | feedLf
  | feedData (b : Byte)
  | range0
  | range1
  | range2
  | range3
  | range4
  | range5
  | range6
  | digit0
  | digit1
  | digit2
  | digit3
  | digit4
  | digit5
  | digit6
  | digit7
  | digit8
  | digit9
  | fnAutoAmpere
  | fnDiode
  | fnFrequency
  | fnOhm
  | fnTemperature
  | fnContinuity
  | fnCapacitor
  | fnAdp2
  | fnManualAmpere
  | fnAdp3
  | fnVoltage
  | fnAdp1
  | fnMicroAmpere
  | fnAdp0
  | fnMilliAmpere
  | status (b : Byte)
  | unusedByte7 (b : Byte)
  | option (b : Byte)
  deriving DecidableEq, Repr

end Sys2Proof
end

