-- ==== Sys2Proof/Machine/State.lean ====
section
/-! DEFINITION. The state of the machine: the block's two registers (spec R13 to R15), the values on its
output ports after a transaction (R18, R93), the output of a field decoder, and the operations the host has still
to present. -/

namespace Sys2Proof.Machine

/-- The block has no fault, stuck or halted state (R115; 93_implementation_defined.md, end of Part 1: "No
behaviour of the block is `fault` or `stuck`"), so no reason to fault exists: nobody raises one. -/
inductive Fault where
  deriving DecidableEq, Repr

/-- Why the model takes no step. -/
inductive Refusal where
  /-- Raised only by an arm of `exec` without a meaning; there is none in this model. Safe. -/
  | notModelled (mnemonic : String)
  /-- Raised by a resolve query that presents the range code 7, a value outside its type (R94, I-6: "A model
  refuses it and gives it no meaning"). Safe: the model stops where a port has no defined result. -/
  | rangeCodeOutOfType (code : BitVec 3)
  /-- Raised by a resolve query that presents the function code 15 (R94, I-6). Safe, as above. -/
  | functionCodeOutOfType (code : BitVec 4)
  /-- Raised by a resolve query that presents a digit nibble above 9 (R94, I-6). Safe, as above. -/
  | digitOutOfType (digits : BitVec 16)
  deriving DecidableEq, Repr

/-- What the resolve port carries (R58, R93): no query was made, or a query's answer, absent or found. -/
inductive ResolverReply where
  | noQuery
  | absent
  | found (placement : Placement) (value : MeasurementValue)
  deriving DecidableEq, Repr

/-- What the output of a field decoder carries: a decoded field, or its error (R65). -/
inductive FieldValue where
  | range (r : RangeCode)
  | digit (d : Digit)
  | function (f : FunctionCode)
  | status (s : StatusFlags)
  | option (o : OptionFlags)
  | rejected (e : FrameError)
  deriving DecidableEq, Repr

/-- One operation of the host (R95, R126, R93, R120: each is always permitted). -/
inductive HostOp where
  /-- `feed(b)` (R95), the block's only input: no byte reaches a field decoder but inside the frame decoder (R72). -/
  | feed (b : Byte)
  /-- `reset()` (R126). -/
  | reset
  /-- A resolve query with a range code, a function code and four digit nibbles, d0 highest (R93). -/
  | query (range : BitVec 3) (function : BitVec 4) (digits : BitVec 16)
  /-- A resolve query with a whole packed Record (R93, R56). -/
  | queryRecord (payload : BitVec 30)
  deriving DecidableEq, Repr

/-- The machine's state. `st` and `buf` are all the state the block has (R13); the other fields are the model's
own: the ports as the last transaction left them, and the host's side. -/
structure State where
  /-- R14: the framer's state register. -/
  st : FramerState
  /-- R15: the accumulation buffer, oldest byte first. -/
  buf : List Byte
  /-- R18: the outcome on the output port. -/
  out : StepOutcome
  /-- R93: the resolve port. -/
  reply : ResolverReply
  /-- The combinational output of the field row just evaluated (R72; log entry 3). A step evaluates the field rows
  inside the frame decoder only, and leaves nothing here. -/
  field : Option FieldValue
  /-- R16, R134: the host's operations still to come, the next one first (log entry 1). -/
  pending : List HostOp
  deriving DecidableEq, Repr

/-- R29, R125: `st = Idle`, `buf = []`; nothing on the ports, nothing presented. -/
def State.reset : State where
  st := .idle
  buf := []
  out := .none
  reply := .noQuery
  field := none
  pending := []

end Sys2Proof.Machine
end

