-- ==== Sys2Proof/Machine/Ops.lean ====
section
/-! DEFINITION. The named operations over the registers and ports. The buffer is reached by the four primitives
of spec R32 only. An error is reported as a value in the outcome (`emit (.err e)`); there is no exception to take
and none to return from (R113, R114). -/

namespace Sys2Proof.Machine

/-- R32 append: `buf <- buf ++ [b]`. -/
def State.append (b : Byte) (s : State) : State := { s with buf := s.buf ++ [b] }

/-- R32 trim: `buf <- drop(len(buf) - 9, buf)`, which drops the oldest bytes. -/
def State.trim (s : State) : State := { s with buf := s.buf.drop (s.buf.length - FRAME_LEN) }

/-- R32 clear: `buf <- []`. -/
def State.clear (s : State) : State := { s with buf := [] }

/-- R16: `st <- x`, the block's only control transfer. -/
def State.goto (x : FramerState) (s : State) : State := { s with st := x }

/-- R18: `out <- o`, the step's one outcome. An error outcome changes nothing else (R112, R113). -/
def State.emit (o : StepOutcome) (s : State) : State := { s with out := o }

/-- The combinational output of a field decoder (R65, R72; log entry 3): no register is written. -/
def State.driveField (v : Option FieldValue) (s : State) : State := { s with field := v }

/-- R93: the resolve port. It reads and writes neither `st` nor `buf`. -/
def State.answer (r : ResolverReply) (s : State) : State := { s with reply := r }

/-- R126, R127: reset between steps: `st <- Idle`, `buf <- []`, and no outcome for what `buf` held. The host's
own operations stay (they are not the block's). -/
def State.resetBlock (s : State) : State := { s with st := .idle, buf := [], out := .none }

/-- D2, R130: a port's value is valid for its own transaction only, and nothing is queued: each transaction
begins with nothing on the ports. -/
def State.quiet (s : State) : State := { s with out := .none, reply := .noQuery, field := none }

/-- The host's operations still to come. -/
def State.withPending (ops : List HostOp) (s : State) : State := { s with pending := ops }

end Sys2Proof.Machine
end

