-- ==== Sys2Proof/Machine/DigitField.lean ====
section
/-! DEFINITION. The meanings of the rows DIGIT0 to DIGIT9: the digit decoder's value for its ten valid bytes
(spec R49, R68). A field decoder writes its output and no state (R72). -/

namespace Sys2Proof.Machine

/-- `DIGIT0`: `decode_digit(0x30)` is 0 (R68). -/
def execDigit0 (s : State) : Host.Outcome State Fault Refusal :=
  .next (s.driveField (some (.digit 0)))

/-- `DIGIT1`: `decode_digit(0x31)` is 1 (R68). -/
def execDigit1 (s : State) : Host.Outcome State Fault Refusal :=
  .next (s.driveField (some (.digit 1)))

/-- `DIGIT2`: `decode_digit(0x32)` is 2 (R68). -/
def execDigit2 (s : State) : Host.Outcome State Fault Refusal :=
  .next (s.driveField (some (.digit 2)))

/-- `DIGIT3`: `decode_digit(0x33)` is 3 (R68). -/
def execDigit3 (s : State) : Host.Outcome State Fault Refusal :=
  .next (s.driveField (some (.digit 3)))

/-- `DIGIT4`: `decode_digit(0x34)` is 4 (R68). -/
def execDigit4 (s : State) : Host.Outcome State Fault Refusal :=
  .next (s.driveField (some (.digit 4)))

/-- `DIGIT5`: `decode_digit(0x35)` is 5 (R68). -/
def execDigit5 (s : State) : Host.Outcome State Fault Refusal :=
  .next (s.driveField (some (.digit 5)))

/-- `DIGIT6`: `decode_digit(0x36)` is 6 (R68). -/
def execDigit6 (s : State) : Host.Outcome State Fault Refusal :=
  .next (s.driveField (some (.digit 6)))

/-- `DIGIT7`: `decode_digit(0x37)` is 7 (R68). -/
def execDigit7 (s : State) : Host.Outcome State Fault Refusal :=
  .next (s.driveField (some (.digit 7)))

/-- `DIGIT8`: `decode_digit(0x38)` is 8 (R68). -/
def execDigit8 (s : State) : Host.Outcome State Fault Refusal :=
  .next (s.driveField (some (.digit 8)))

/-- `DIGIT9`: `decode_digit(0x39)` is 9 (R68). -/
def execDigit9 (s : State) : Host.Outcome State Fault Refusal :=
  .next (s.driveField (some (.digit 9)))

end Sys2Proof.Machine
end

