-- ==== Sys2Proof/Machine/Flags.lean ====
section
/-! DEFINITION. The bit-masking decoders of the status and option bytes (spec R69, R70, R71) and the predicates
of the sign (R23). -/

namespace Sys2Proof.Machine

/-- R10: bit `i` of a byte, bit 0 the least significant. -/
def bitOf (b : Byte) (i : Nat) : Bool := b.getLsbD i

/-- R70: status bits 3 to 0; bits 7 to 4 are not read. -/
def decodeStatus (b : Byte) : StatusFlags where
  tempUnit := if bitOf b 3 then .celsius else .fahrenheit
  sign := if bitOf b 2 then .negative else .positive
  batteryLow := bitOf b 1
  overflow := bitOf b 0

/-- R71: option bits 3 to 1; bits 7 to 4 and bit 0 are not read. -/
def decodeOption (b : Byte) : OptionFlags where
  dc := bitOf b 3
  ac := bitOf b 2
  auto := bitOf b 1

/-- R23: `is_negative` holds iff the sign is Negative. -/
def isNegative (s : StatusFlags) : Bool := s.sign == .negative

/-- R23: `is_positive` holds iff the sign is Positive. -/
def isPositive (s : StatusFlags) : Bool := s.sign == .positive

end Sys2Proof.Machine
end

