-- ==== Sys2Proof/Machine/FlagField.lean ====
section
/-! DEFINITION. The meanings of the rows STATUS, UNUSED_BYTE7 and OPTION, whose bytes all are valid (spec R50 to R52).
A field decoder writes its output and no state (R72). -/

namespace Sys2Proof.Machine

/-- `STATUS`: `decode_status` by bit-masking; it cannot fail (R69, R70). -/
def execStatus (b : Byte) (s : State) : Host.Outcome State Fault Refusal :=
  .next (s.driveField (some (.status (decodeStatus b))))

/-- `UNUSED_BYTE7`: the byte is never inspected and gives no value (R52, R77). -/
def execUnusedByte7 (_b : Byte) (s : State) : Host.Outcome State Fault Refusal :=
  .next (s.driveField none)

/-- `OPTION`: `decode_option` by bit-masking; it cannot fail (R69, R71). -/
def execOption (b : Byte) (s : State) : Host.Outcome State Fault Refusal :=
  .next (s.driveField (some (.option (decodeOption b))))

end Sys2Proof.Machine
end

