-- ==== Sys2Proof/Config.lean ====
section
/-! DEFINITION. What an implementation of the block fixes and the spec leaves open: the function-byte table
`FUNC_TABLE` (R7, R67) and the unit table `UNIT_TABLE` (R8, R86). Both are opaque: no proof can learn an entry
the spec does not fix. The candidate bindings of 93_implementation_defined.md (I-G1, I-G2) stand here as named
tables a claim may instantiate; the machine does not use their entries. -/

namespace Sys2Proof

/-- R67: the window 0x30..0x3F that every entry of `FUNC_TABLE` lies in. -/
def inFunctionWindow (b : Byte) : Bool := 0x30 ≤ b.toNat && b.toNat ≤ 0x3F

/-- R67: a legal `FUNC_TABLE`, the partial function from bytes to function codes with the four properties the
spec imposes (constancy is the type's: a table is a value, not a register). -/
structure FuncTable where
  /-- The table itself. -/
  entry : Byte → Option FunctionCode
  /-- R67.1: the domain is 15 bytes, all of 0x30..0x3F but one. -/
  fifteen : ∃ m, inFunctionWindow m = true ∧
    ∀ b, entry b = none ↔ (inFunctionWindow b = false ∨ b = m)
  /-- R67.2: the entry of scenario 3. -/
  ohm : entry 0x33#8 = some .ohm
  /-- R67.2: the entry of scenario 5. -/
  manualAmpere : entry 0x39#8 = some .manualAmpere
  /-- R67.2: the entry of scenarios 1 and 2. -/
  voltage : entry 0x3B#8 = some .voltage
  /-- R67.2: the entry of scenario 4. -/
  adp0 : entry 0x3E#8 = some .adp0
  /-- R67.3: no two bytes share a function code. -/
  injective : ∀ a b f, entry a = some f → entry b = some f → a = b

/-- The shape of a unit table (R86): a total function to an optional placement and unit. -/
abbrev UnitTable := RangeCode → FunctionCode → Option (Placement × UnitDescriptor)

namespace Config

/-- I-G1: the candidate binding of `FUNC_TABLE`. PRESUMED by the spec itself (general knowledge, not
normative); the model only uses it to show that a legal table exists. -/
def candidateFuncEntry (b : Byte) : Option FunctionCode :=
  match b.toNat with
  | 0x30 => some .autoAmpere
  | 0x31 => some .diode
  | 0x32 => some .frequency
  | 0x33 => some .ohm
  | 0x34 => some .temperature
  | 0x35 => some .continuity
  | 0x36 => some .capacitor
  | 0x38 => some .adp2
  | 0x39 => some .manualAmpere
  | 0x3A => some .adp3
  | 0x3B => some .voltage
  | 0x3C => some .adp1
  | 0x3D => some .microAmpere
  | 0x3E => some .adp0
  | 0x3F => some .milliAmpere
  | _ => none

/-- Where I-G1 puts each function code; used only to show that the candidate is injective. -/
def candidateFuncByte : FunctionCode → Byte
  | .autoAmpere => 0x30#8
  | .diode => 0x31#8
  | .frequency => 0x32#8
  | .ohm => 0x33#8
  | .temperature => 0x34#8
  | .continuity => 0x35#8
  | .capacitor => 0x36#8
  | .adp2 => 0x38#8
  | .manualAmpere => 0x39#8
  | .adp3 => 0x3A#8
  | .voltage => 0x3B#8
  | .adp1 => 0x3C#8
  | .microAmpere => 0x3D#8
  | .adp0 => 0x3E#8
  | .milliAmpere => 0x3F#8

theorem candidateFuncEntry_byte :
    ∀ b : Byte, (candidateFuncEntry b).all (fun f => candidateFuncByte f == b) = true := by
  decide

/-- I-G1 as a legal table: 0x37 is the byte it leaves out. -/
def candidateFuncTable : FuncTable where
  entry := candidateFuncEntry
  fifteen := ⟨0x37#8, by decide, by decide⟩
  ohm := rfl
  manualAmpere := rfl
  voltage := rfl
  adp0 := rfl
  injective := by
    intro a b f ha hb
    have h1 := candidateFuncEntry_byte a
    have h2 := candidateFuncEntry_byte b
    rw [ha] at h1
    rw [hb] at h2
    exact (eq_of_beq h1).symm.trans (eq_of_beq h2)

/-- R7, R67, decision D8: some legal function table. It has no body: the bracketed argument only shows that
legal tables exist, and nothing can be proved of the table beyond its being legal. -/
opaque funcTableParam [Inhabited FuncTable] : FuncTable

/-- `FUNC_TABLE`, the function-byte table of this block. -/
def funcTable : FuncTable := @funcTableParam ⟨candidateFuncTable⟩

/-- R8, R86, decision D9: the entries of `UNIT_TABLE` that the spec does not fix. It has no body. The entries
rules R88 and R89 fix are put over it by `unitTableOf`. -/
opaque unitTableParam : UnitTable

/-- I-G2: the candidate binding of `UNIT_TABLE`, of low confidence in the spec's own words (PRESUMED, not
normative). The machine never uses it. -/
def candidateUnitTable : UnitTable
  | .range0, .voltage => some (.minus3, ⟨.noScale, .volt⟩)
  | .range1, .voltage => some (.minus2, ⟨.noScale, .volt⟩)
  | .range2, .voltage => some (.minus1, ⟨.noScale, .volt⟩)
  | .range3, .voltage => some (.zero, ⟨.noScale, .volt⟩)
  | .range4, .voltage => some (.minus1, ⟨.milli, .volt⟩)
  | .range0, .microAmpere => some (.minus1, ⟨.micro, .ampere⟩)
  | .range1, .microAmpere => some (.zero, ⟨.micro, .ampere⟩)
  | .range0, .milliAmpere => some (.minus2, ⟨.milli, .ampere⟩)
  | .range1, .milliAmpere => some (.minus1, ⟨.milli, .ampere⟩)
  | .range0, .autoAmpere => some (.minus3, ⟨.noScale, .ampere⟩)
  | .range1, .autoAmpere => some (.minus2, ⟨.noScale, .ampere⟩)
  | .range0, .manualAmpere => some (.minus3, ⟨.noScale, .ampere⟩)
  | .range1, .manualAmpere => some (.minus2, ⟨.noScale, .ampere⟩)
  | .range0, .ohm => some (.minus1, ⟨.noScale, .ohm⟩)
  | .range1, .ohm => some (.minus3, ⟨.kilo, .ohm⟩)
  | .range2, .ohm => some (.minus2, ⟨.kilo, .ohm⟩)
  | .range3, .ohm => some (.minus1, ⟨.kilo, .ohm⟩)
  | .range4, .ohm => some (.minus3, ⟨.mega, .ohm⟩)
  | .range5, .ohm => some (.minus2, ⟨.mega, .ohm⟩)
  | .range6, .ohm => some (.minus1, ⟨.mega, .ohm⟩)
  | .range0, .frequency => some (.minus2, ⟨.noScale, .hertz⟩)
  | .range1, .frequency => some (.minus1, ⟨.noScale, .hertz⟩)
  | .range2, .frequency => some (.minus3, ⟨.kilo, .hertz⟩)
  | .range3, .frequency => some (.minus2, ⟨.kilo, .hertz⟩)
  | .range4, .frequency => some (.minus1, ⟨.kilo, .hertz⟩)
  | .range5, .frequency => some (.minus3, ⟨.mega, .hertz⟩)
  | .range6, .frequency => some (.minus2, ⟨.mega, .hertz⟩)
  | .range0, .capacitor => some (.minus3, ⟨.nano, .farad⟩)
  | .range1, .capacitor => some (.minus2, ⟨.nano, .farad⟩)
  | .range2, .capacitor => some (.minus1, ⟨.nano, .farad⟩)
  | .range3, .capacitor => some (.minus3, ⟨.micro, .farad⟩)
  | .range4, .capacitor => some (.minus2, ⟨.micro, .farad⟩)
  | .range5, .capacitor => some (.minus1, ⟨.micro, .farad⟩)
  | .range6, .capacitor => some (.minus3, ⟨.milli, .farad⟩)
  | _, _ => none

end Config

end Sys2Proof
end

