-- ==== Sys2Proof/WellFormed.lean ====
section
/-! DEFINITION. Which instructions are well formed (spec R44, R62): `FEED_DATA` is the row of every stream
byte that is neither CR nor LF; no other row has an operand that could be wrong (R50, R51, R52: every status,
option and unused byte is valid). -/

namespace Sys2Proof

/-- R44: a data byte is any byte that is not a terminator. -/
def isData (b : Byte) : Bool := b != CR && b != LF

/-- R44, R62: the operand of `FEED_DATA` is a data byte; every other instruction is well formed. -/
def Instr.wf : Instr → Bool
  | .feedCr => true
  | .feedLf => true
  | .feedData b => isData b
  | .range0 => true
  | .range1 => true
  | .range2 => true
  | .range3 => true
  | .range4 => true
  | .range5 => true
  | .range6 => true
  | .digit0 => true
  | .digit1 => true
  | .digit2 => true
  | .digit3 => true
  | .digit4 => true
  | .digit5 => true
  | .digit6 => true
  | .digit7 => true
  | .digit8 => true
  | .digit9 => true
  | .fnAutoAmpere => true
  | .fnDiode => true
  | .fnFrequency => true
  | .fnOhm => true
  | .fnTemperature => true
  | .fnContinuity => true
  | .fnCapacitor => true
  | .fnAdp2 => true
  | .fnManualAmpere => true
  | .fnAdp3 => true
  | .fnVoltage => true
  | .fnAdp1 => true
  | .fnMicroAmpere => true
  | .fnAdp0 => true
  | .fnMilliAmpere => true
  | .status _ => true
  | .unusedByte7 _ => true
  | .option _ => true

end Sys2Proof
end

