-- ==== Sys2Proof/Decode.lean ====
section
/-! DEFINITION. The decoders of one byte: the framer's byte classes (spec R44), the range, digit and function
decoders (R63, R66, R68), and from them the reading of a byte as a row of the opcode table in the byte's format
(`decode`), with the encoder (`encode`) after it. Every byte is either decoded or rejected by the spec's own
error (R62: a byte that matches no row of a field is invalid for that field). -/

namespace Sys2Proof

/-- R44: the three byte classes, by exact comparison of all 8 bits. -/
def classify (b : Byte) : Instr :=
  if b = CR then .feedCr else if b = LF then .feedLf else .feedData b

/-- R63, R64: an explicit finite mapping of the exact byte value; no bit is masked. -/
def decodeRange (b : Byte) : Except FrameError RangeCode :=
  match b.toNat with
  | 0x30 => .ok .range0
  | 0x31 => .ok .range1
  | 0x32 => .ok .range2
  | 0x33 => .ok .range3
  | 0x34 => .ok .range4
  | 0x35 => .ok .range5
  | 0x36 => .ok .range6
  | _ => .error (.invalidRange b)

/-- R68, R64: the ten ASCII digits, as an explicit finite mapping. -/
def decodeDigit (b : Byte) : Except FrameError Digit :=
  match b.toNat with
  | 0x30 => .ok 0
  | 0x31 => .ok 1
  | 0x32 => .ok 2
  | 0x33 => .ok 3
  | 0x34 => .ok 4
  | 0x35 => .ok 5
  | 0x36 => .ok 6
  | 0x37 => .ok 7
  | 0x38 => .ok 8
  | 0x39 => .ok 9
  | _ => .error (.invalidDigit b)

/-- R66: the four entries the spec fixes, then `FUNC_TABLE`. -/
def decodeFunction (T : FuncTable) (b : Byte) : Except FrameError FunctionCode :=
  match b.toNat with
  | 0x33 => .ok .ohm
  | 0x39 => .ok .manualAmpere
  | 0x3B => .ok .voltage
  | 0x3E => .ok .adp0
  | _ =>
    match T.entry b with
    | some f => .ok f
    | none => .error (.invalidFunction b)

/-- The opcode-table row of each range code. -/
def rangeInstr : RangeCode → Instr
  | .range0 => .range0
  | .range1 => .range1
  | .range2 => .range2
  | .range3 => .range3
  | .range4 => .range4
  | .range5 => .range5
  | .range6 => .range6

/-- The opcode-table row of each digit. -/
def digitInstr (d : Digit) : Instr :=
  match d.val with
  | 0 => .digit0
  | 1 => .digit1
  | 2 => .digit2
  | 3 => .digit3
  | 4 => .digit4
  | 5 => .digit5
  | 6 => .digit6
  | 7 => .digit7
  | 8 => .digit8
  | _ => .digit9

/-- The opcode-table row of each function code. -/
def functionInstr : FunctionCode → Instr
  | .autoAmpere => .fnAutoAmpere
  | .diode => .fnDiode
  | .frequency => .fnFrequency
  | .ohm => .fnOhm
  | .temperature => .fnTemperature
  | .continuity => .fnContinuity
  | .capacitor => .fnCapacitor
  | .adp2 => .fnAdp2
  | .manualAmpere => .fnManualAmpere
  | .adp3 => .fnAdp3
  | .voltage => .fnVoltage
  | .adp1 => .fnAdp1
  | .microAmpere => .fnMicroAmpere
  | .adp0 => .fnAdp0
  | .milliAmpere => .fnMilliAmpere

/-- The row a byte is in its format, under a given function table. Total: the stream, status, unused and
option formats take every byte (R44, R50, R51, R52), the others reject a byte by its error (R47, R48, R49). -/
def decodeIn (T : FuncTable) : Slot → Byte → Except FrameError Instr
  | .stream, b => .ok (classify b)
  | .range, b => (decodeRange b).map rangeInstr
  | .digit, b => (decodeDigit b).map digitInstr
  | .function, b => (decodeFunction T b).map functionInstr
  | .status, b => .ok (.status b)
  | .unused, b => .ok (.unusedByte7 b)
  | .option, b => .ok (.option b)

/-- The decoder of this block: `decodeIn` with the block's `FUNC_TABLE`. -/
def decode (slot : Slot) (b : Byte) : Except FrameError Instr := decodeIn Config.funcTable slot b

/-- The format each row of the opcode table belongs to (the table's column `format`). -/
def Instr.slot : Instr → Slot
  | .feedCr => .stream
  | .feedLf => .stream
  | .feedData _ => .stream
  | .range0 => .range
  | .range1 => .range
  | .range2 => .range
  | .range3 => .range
  | .range4 => .range
  | .range5 => .range
  | .range6 => .range
  | .digit0 => .digit
  | .digit1 => .digit
  | .digit2 => .digit
  | .digit3 => .digit
  | .digit4 => .digit
  | .digit5 => .digit
  | .digit6 => .digit
  | .digit7 => .digit
  | .digit8 => .digit
  | .digit9 => .digit
  | .fnAutoAmpere => .function
  | .fnDiode => .function
  | .fnFrequency => .function
  | .fnOhm => .function
  | .fnTemperature => .function
  | .fnContinuity => .function
  | .fnCapacitor => .function
  | .fnAdp2 => .function
  | .fnManualAmpere => .function
  | .fnAdp3 => .function
  | .fnVoltage => .function
  | .fnAdp1 => .function
  | .fnMicroAmpere => .function
  | .fnAdp0 => .function
  | .fnMilliAmpere => .function
  | .status _ => .status
  | .unusedByte7 _ => .unused
  | .option _ => .option

/-- The bytes 0x30..0x3F, in order. -/
def functionWindow : List Byte :=
  [0x30#8, 0x31#8, 0x32#8, 0x33#8, 0x34#8, 0x35#8, 0x36#8, 0x37#8,
   0x38#8, 0x39#8, 0x3A#8, 0x3B#8, 0x3C#8, 0x3D#8, 0x3E#8, 0x3F#8]

/-- The byte a function table maps to a code: the first of the window that it maps there. A legal table has
exactly one (R67), so the last resort 0x00 is never taken. -/
def tableByte (T : FuncTable) (f : FunctionCode) : Byte :=
  (functionWindow.find? (fun b => decide (T.entry b = some f))).getD 0x00#8

/-- R48: the function byte of each code; four are fixed by the spec, the others are the table's. -/
def encodeFunction (T : FuncTable) : FunctionCode → Byte
  | .ohm => 0x33#8
  | .manualAmpere => 0x39#8
  | .voltage => 0x3B#8
  | .adp0 => 0x3E#8
  | .autoAmpere => tableByte T .autoAmpere
  | .diode => tableByte T .diode
  | .frequency => tableByte T .frequency
  | .temperature => tableByte T .temperature
  | .continuity => tableByte T .continuity
  | .capacitor => tableByte T .capacitor
  | .adp2 => tableByte T .adp2
  | .adp3 => tableByte T .adp3
  | .adp1 => tableByte T .adp1
  | .microAmpere => tableByte T .microAmpere
  | .milliAmpere => tableByte T .milliAmpere

/-- The byte of a well-formed instruction in its own format (R44, R47 to R52). -/
def encodeIn (T : FuncTable) : Instr → Byte
  | .feedCr => 0x0D#8
  | .feedLf => 0x0A#8
  | .feedData b => b
  | .range0 => 0x30#8
  | .range1 => 0x31#8
  | .range2 => 0x32#8
  | .range3 => 0x33#8
  | .range4 => 0x34#8
  | .range5 => 0x35#8
  | .range6 => 0x36#8
  | .digit0 => 0x30#8
  | .digit1 => 0x31#8
  | .digit2 => 0x32#8
  | .digit3 => 0x33#8
  | .digit4 => 0x34#8
  | .digit5 => 0x35#8
  | .digit6 => 0x36#8
  | .digit7 => 0x37#8
  | .digit8 => 0x38#8
  | .digit9 => 0x39#8
  | .fnAutoAmpere => encodeFunction T .autoAmpere
  | .fnDiode => encodeFunction T .diode
  | .fnFrequency => encodeFunction T .frequency
  | .fnOhm => encodeFunction T .ohm
  | .fnTemperature => encodeFunction T .temperature
  | .fnContinuity => encodeFunction T .continuity
  | .fnCapacitor => encodeFunction T .capacitor
  | .fnAdp2 => encodeFunction T .adp2
  | .fnManualAmpere => encodeFunction T .manualAmpere
  | .fnAdp3 => encodeFunction T .adp3
  | .fnVoltage => encodeFunction T .voltage
  | .fnAdp1 => encodeFunction T .adp1
  | .fnMicroAmpere => encodeFunction T .microAmpere
  | .fnAdp0 => encodeFunction T .adp0
  | .fnMilliAmpere => encodeFunction T .milliAmpere
  | .status b => b
  | .unusedByte7 b => b
  | .option b => b

/-- The encoder of this block: `encodeIn` with the block's `FUNC_TABLE`. -/
def encode (i : Instr) : Byte := encodeIn Config.funcTable i

/-- The one byte of an instruction whose low `nbits` bits are `w` and whose other bits are 0 (R43: the input
word is 8 bits). -/
def tableByteOf (nbits w : Nat) : Byte := BitVec.ofNat 8 (w % 2 ^ nbits)

/-- The instruction the block reads from a byte of its input: the stream is where it takes its bytes from, so
this is the framer's reading (R44, R62: `FEED_DATA` applies when neither `FEED_CR` nor `FEED_LF` matches). The
rows of the other formats share their byte values with it and with one another; they are read by `decode` in
their own format (log entry 2). No row is wider than a byte. -/
def decodeTableWord (nbits w : Nat) : Option Instr :=
  if nbits ≤ 8 then (decode .stream (tableByteOf nbits w)).toOption else none

end Sys2Proof
end

