-- ==== Sys2Proof/Machine/FrameDecoder.lean ====
section
/-! DEFINITION. The frame decoder (spec R73 to R80): a pure function of a byte sequence and of the constant
`FUNC_TABLE`. -/

namespace Sys2Proof.Machine

/-- The fields of a 9-byte frame in the order of R75 (range, digits left to right, function); the first failure
is the result, and status and option cannot fail (R69). Byte 7 is not an argument: it is never read (R77). -/
def decodeFields (T : FuncTable) (b0 b1 b2 b3 b4 b5 b6 b8 : Byte) : Except FrameError Record :=
  match decodeRange b0 with
  | .error e => .error e
  | .ok r =>
  match decodeDigit b1 with
  | .error e => .error e
  | .ok d0 =>
  match decodeDigit b2 with
  | .error e => .error e
  | .ok d1 =>
  match decodeDigit b3 with
  | .error e => .error e
  | .ok d2 =>
  match decodeDigit b4 with
  | .error e => .error e
  | .ok d3 =>
  match decodeFunction T b5 with
  | .error e => .error e
  | .ok f =>
    .ok { range := r, digits := ⟨d0, d1, d2, d3⟩, function := f,
          status := decodeStatus b6, option := decodeOption b8 }

/-- R73, R74: exactly 9 bytes are decoded; any other length is a `LengthError` with that length, whatever the
bytes are. Defined for every length (R79). -/
def decodeFrame (T : FuncTable) (bytes : List Byte) : Except FrameError Record :=
  match bytes with
  | [b0, b1, b2, b3, b4, b5, b6, _, b8] => decodeFields T b0 b1 b2 b3 b4 b5 b6 b8
  | _ => .error (.lengthError bytes.length)

/-- R95: `Ok(r)` for a Record, `Err(e)` for an error; a boundary is never silent (R106). -/
def outcomeOf : Except FrameError Record → StepOutcome
  | .ok r => .ok r
  | .error e => .err e

/-- R45: the formats of frame bytes 0 to 8. -/
def frameLayout : List Slot :=
  [.range, .digit, .digit, .digit, .digit, .function, .status, .unused, .option]

end Sys2Proof.Machine
end

