-- ==== Sys2Proof/Machine/Framer.lean ====
section
/-! DEFINITION. The stream framer (spec R95 to R103): the meanings of the three stream rows, each dispatching on
`st` as the table of R95 does. Reads of `buf` see its value before the step (R36). -/

namespace Sys2Proof.Machine

/-- A boundary (R96, R97, R102): decode the whole buffer, emit the result, clear the buffer and go to `x`. The
writes to `st` and `buf` are the same whatever the result is (R112, R113). -/
def boundary (x : FramerState) (s : State) : State :=
  ((s.emit (outcomeOf (decodeFrame Config.funcTable s.buf))).clear).goto x

/-- R98, R99: append, and if the buffer now exceeds 9 bytes trim it and report its length before the trim. -/
def accumulate (b : Byte) (s : State) : State :=
  let s' := s.append b
  if FRAME_LEN < s'.buf.length then (s'.trim).emit (.err (.lengthError s'.buf.length))
  else s'.emit .none

/-- `FEED_CR`: R96 in `Idle`, R102 in `AfterCr` (decision D4, conflict C1: a boundary in both). -/
def execFeedCr (s : State) : Host.Outcome State Fault Refusal :=
  match s.st with
  | .idle => .next (boundary .afterCr s)
  | .afterCr => .next (boundary .afterCr s)

/-- `FEED_LF`: R97 in `Idle`; R101 in `AfterCr`, where the LF of a CRLF pair is swallowed. -/
def execFeedLf (s : State) : Host.Outcome State Fault Refusal :=
  match s.st with
  | .idle => .next (boundary .idle s)
  | .afterCr => .next (((s.clear).goto .idle).emit .none)

/-- `FEED_DATA`: R98 and R99 in `Idle`; R103 in `AfterCr`, the first byte of a new frame. -/
def execFeedData (b : Byte) (s : State) : Host.Outcome State Fault Refusal :=
  match s.st with
  | .idle => .next (accumulate b s)
  | .afterCr => .next (((s.append b).goto .idle).emit .none)

end Sys2Proof.Machine
end

