-- ==== Sys2Proof/Machine/FunctionField.lean ====
section
/-! DEFINITION. The meanings of the rows FN_*: the function decoder's value for each of the fifteen function codes
(spec R48, R66, R67). Which byte selects a row is `FUNC_TABLE`'s, except for the four bytes the spec fixes. A field
decoder writes its output and no state (R72). -/

namespace Sys2Proof.Machine

/-- `FN_AUTOAMPERE`: `decode_function` of the byte `FUNC_TABLE` gives AutoAmpere (R67). -/
def execFnAutoAmpere (s : State) : Host.Outcome State Fault Refusal :=
  .next (s.driveField (some (.function .autoAmpere)))

/-- `FN_DIODE`: `decode_function` of the byte `FUNC_TABLE` gives Diode (R67). -/
def execFnDiode (s : State) : Host.Outcome State Fault Refusal :=
  .next (s.driveField (some (.function .diode)))

/-- `FN_FREQUENCY`: `decode_function` of the byte `FUNC_TABLE` gives Frequency (R67). -/
def execFnFrequency (s : State) : Host.Outcome State Fault Refusal :=
  .next (s.driveField (some (.function .frequency)))

/-- `FN_OHM`: `decode_function(0x33)` is Ohm (R66). -/
def execFnOhm (s : State) : Host.Outcome State Fault Refusal :=
  .next (s.driveField (some (.function .ohm)))

/-- `FN_TEMPERATURE`: `decode_function` of the byte `FUNC_TABLE` gives Temperature (R67). -/
def execFnTemperature (s : State) : Host.Outcome State Fault Refusal :=
  .next (s.driveField (some (.function .temperature)))

/-- `FN_CONTINUITY`: `decode_function` of the byte `FUNC_TABLE` gives Continuity (R67). -/
def execFnContinuity (s : State) : Host.Outcome State Fault Refusal :=
  .next (s.driveField (some (.function .continuity)))

/-- `FN_CAPACITOR`: `decode_function` of the byte `FUNC_TABLE` gives Capacitor (R67). -/
def execFnCapacitor (s : State) : Host.Outcome State Fault Refusal :=
  .next (s.driveField (some (.function .capacitor)))

/-- `FN_ADP2`: `decode_function` of the byte `FUNC_TABLE` gives Adp2 (R67). -/
def execFnAdp2 (s : State) : Host.Outcome State Fault Refusal :=
  .next (s.driveField (some (.function .adp2)))

/-- `FN_MANUALAMPERE`: `decode_function(0x39)` is ManualAmpere (R66). -/
def execFnManualAmpere (s : State) : Host.Outcome State Fault Refusal :=
  .next (s.driveField (some (.function .manualAmpere)))

/-- `FN_ADP3`: `decode_function` of the byte `FUNC_TABLE` gives Adp3 (R67). -/
def execFnAdp3 (s : State) : Host.Outcome State Fault Refusal :=
  .next (s.driveField (some (.function .adp3)))

/-- `FN_VOLTAGE`: `decode_function(0x3B)` is Voltage (R66). -/
def execFnVoltage (s : State) : Host.Outcome State Fault Refusal :=
  .next (s.driveField (some (.function .voltage)))

/-- `FN_ADP1`: `decode_function` of the byte `FUNC_TABLE` gives Adp1 (R67). -/
def execFnAdp1 (s : State) : Host.Outcome State Fault Refusal :=
  .next (s.driveField (some (.function .adp1)))

/-- `FN_MICROAMPERE`: `decode_function` of the byte `FUNC_TABLE` gives MicroAmpere (R67). -/
def execFnMicroAmpere (s : State) : Host.Outcome State Fault Refusal :=
  .next (s.driveField (some (.function .microAmpere)))

/-- `FN_ADP0`: `decode_function(0x3E)` is Adp0 (R66). -/
def execFnAdp0 (s : State) : Host.Outcome State Fault Refusal :=
  .next (s.driveField (some (.function .adp0)))

/-- `FN_MILLIAMPERE`: `decode_function` of the byte `FUNC_TABLE` gives MilliAmpere (R67). -/
def execFnMilliAmpere (s : State) : Host.Outcome State Fault Refusal :=
  .next (s.driveField (some (.function .milliAmpere)))

end Sys2Proof.Machine
end

