-- ==== Sys2Proof/Machine/RangeField.lean ====
section
/-! DEFINITION. The meanings of the rows RANGE0 to RANGE6: the range decoder's value for its seven valid bytes
(spec R47, R63). A field decoder writes its output and no state (R72). -/

namespace Sys2Proof.Machine

/-- `RANGE0`: `decode_range(0x30)` is Range0 (R63). -/
def execRange0 (s : State) : Host.Outcome State Fault Refusal :=
  .next (s.driveField (some (.range .range0)))

/-- `RANGE1`: `decode_range(0x31)` is Range1 (R63). -/
def execRange1 (s : State) : Host.Outcome State Fault Refusal :=
  .next (s.driveField (some (.range .range1)))

/-- `RANGE2`: `decode_range(0x32)` is Range2 (R63). -/
def execRange2 (s : State) : Host.Outcome State Fault Refusal :=
  .next (s.driveField (some (.range .range2)))

/-- `RANGE3`: `decode_range(0x33)` is Range3 (R63). -/
def execRange3 (s : State) : Host.Outcome State Fault Refusal :=
  .next (s.driveField (some (.range .range3)))

/-- `RANGE4`: `decode_range(0x34)` is Range4 (R63). -/
def execRange4 (s : State) : Host.Outcome State Fault Refusal :=
  .next (s.driveField (some (.range .range4)))

/-- `RANGE5`: `decode_range(0x35)` is Range5 (R63). -/
def execRange5 (s : State) : Host.Outcome State Fault Refusal :=
  .next (s.driveField (some (.range .range5)))

/-- `RANGE6`: `decode_range(0x36)` is Range6 (R63). -/
def execRange6 (s : State) : Host.Outcome State Fault Refusal :=
  .next (s.driveField (some (.range .range6)))

end Sys2Proof.Machine
end

