-- ==== Sys2Proof/Machine/Dispatch.lean ====
section
/-! DEFINITION. One arm per row of spec/opcode_table.json, each a direct call of the row's meaning. -/

namespace Sys2Proof.Machine

def exec (i : Instr) (s : State) : Host.Outcome State Fault Refusal :=
  match i with
  | .feedCr => Sys2Proof.Machine.execFeedCr s
  | .feedLf => Sys2Proof.Machine.execFeedLf s
  | .feedData b => Sys2Proof.Machine.execFeedData b s
  | .range0 => Sys2Proof.Machine.execRange0 s
  | .range1 => Sys2Proof.Machine.execRange1 s
  | .range2 => Sys2Proof.Machine.execRange2 s
  | .range3 => Sys2Proof.Machine.execRange3 s
  | .range4 => Sys2Proof.Machine.execRange4 s
  | .range5 => Sys2Proof.Machine.execRange5 s
  | .range6 => Sys2Proof.Machine.execRange6 s
  | .digit0 => Sys2Proof.Machine.execDigit0 s
  | .digit1 => Sys2Proof.Machine.execDigit1 s
  | .digit2 => Sys2Proof.Machine.execDigit2 s
  | .digit3 => Sys2Proof.Machine.execDigit3 s
  | .digit4 => Sys2Proof.Machine.execDigit4 s
  | .digit5 => Sys2Proof.Machine.execDigit5 s
  | .digit6 => Sys2Proof.Machine.execDigit6 s
  | .digit7 => Sys2Proof.Machine.execDigit7 s
  | .digit8 => Sys2Proof.Machine.execDigit8 s
  | .digit9 => Sys2Proof.Machine.execDigit9 s
  | .fnAutoAmpere => Sys2Proof.Machine.execFnAutoAmpere s
  | .fnDiode => Sys2Proof.Machine.execFnDiode s
  | .fnFrequency => Sys2Proof.Machine.execFnFrequency s
  | .fnOhm => Sys2Proof.Machine.execFnOhm s
  | .fnTemperature => Sys2Proof.Machine.execFnTemperature s
  | .fnContinuity => Sys2Proof.Machine.execFnContinuity s
  | .fnCapacitor => Sys2Proof.Machine.execFnCapacitor s
  | .fnAdp2 => Sys2Proof.Machine.execFnAdp2 s
  | .fnManualAmpere => Sys2Proof.Machine.execFnManualAmpere s
  | .fnAdp3 => Sys2Proof.Machine.execFnAdp3 s
  | .fnVoltage => Sys2Proof.Machine.execFnVoltage s
  | .fnAdp1 => Sys2Proof.Machine.execFnAdp1 s
  | .fnMicroAmpere => Sys2Proof.Machine.execFnMicroAmpere s
  | .fnAdp0 => Sys2Proof.Machine.execFnAdp0 s
  | .fnMilliAmpere => Sys2Proof.Machine.execFnMilliAmpere s
  | .status b => Sys2Proof.Machine.execStatus b s
  | .unusedByte7 b => Sys2Proof.Machine.execUnusedByte7 b s
  | .option b => Sys2Proof.Machine.execOption b s

end Sys2Proof.Machine
end

