-- ==== Sys2Proof/Machine/Operands.lean ====
section
/-! DEFINITION. Operand assembly (spec R22, R54): the digit group as a list and as a number, the numbering of the
enumerations (R20, R21, R55), and the reading of port codes back into the enumerations (R94). -/

namespace Sys2Proof.Machine

/-- R22: the four digits, most significant first. -/
def digitList (d : DigitGroup) : List Digit := [d.d0, d.d1, d.d2, d.d3]

/-- R22, R54: the magnitude of a digit group, 0 to 9999. -/
def magnitude (d : DigitGroup) : Nat := 1000 * d.d0.val + 100 * d.d1.val + 10 * d.d2.val + d.d3.val

/-- R20: the index of a range code, 0 to 6. -/
def rangeIndex : RangeCode → Nat
  | .range0 => 0
  | .range1 => 1
  | .range2 => 2
  | .range3 => 3
  | .range4 => 4
  | .range5 => 5
  | .range6 => 6

/-- R20: the range code of an index; 7 is outside the type. -/
def rangeOfIndex : Nat → Option RangeCode
  | 0 => some .range0
  | 1 => some .range1
  | 2 => some .range2
  | 3 => some .range3
  | 4 => some .range4
  | 5 => some .range5
  | 6 => some .range6
  | _ => none

/-- R21: the index of a function code, 0 to 14. -/
def functionIndex : FunctionCode → Nat
  | .voltage => 0
  | .microAmpere => 1
  | .milliAmpere => 2
  | .autoAmpere => 3
  | .manualAmpere => 4
  | .ohm => 5
  | .continuity => 6
  | .diode => 7
  | .frequency => 8
  | .capacitor => 9
  | .temperature => 10
  | .adp0 => 11
  | .adp1 => 12
  | .adp2 => 13
  | .adp3 => 14

/-- R21: the function code of an index; 15 is outside the type. -/
def functionOfIndex : Nat → Option FunctionCode
  | 0 => some .voltage
  | 1 => some .microAmpere
  | 2 => some .milliAmpere
  | 3 => some .autoAmpere
  | 4 => some .manualAmpere
  | 5 => some .ohm
  | 6 => some .continuity
  | 7 => some .diode
  | 8 => some .frequency
  | 9 => some .capacitor
  | 10 => some .temperature
  | 11 => some .adp0
  | 12 => some .adp1
  | 13 => some .adp2
  | 14 => some .adp3
  | _ => none

/-- R22: a digit from its nibble; 10 to 15 are outside the type. -/
def digitOfNibble (n : Nat) : Option Digit := if h : n < 10 then some ⟨n, h⟩ else none

/-- R22: a digit group from four nibbles, d0 first, if each is a digit. -/
def digitsOfNibbles (n0 n1 n2 n3 : Nat) : Option DigitGroup :=
  match digitOfNibble n0, digitOfNibble n1, digitOfNibble n2, digitOfNibble n3 with
  | some d0, some d1, some d2, some d3 => some ⟨d0, d1, d2, d3⟩
  | _, _, _, _ => none

/-- R81: the number k(p) of digits after the point; R55: also the placement's code. -/
def fractionDigits : Placement → Nat
  | .zero => 0
  | .minus1 => 1
  | .minus2 => 2
  | .minus3 => 3

/-- R55: the code of a metric scale. -/
def scaleCode : MetricScale → Nat
  | .mega => 0
  | .kilo => 1
  | .noScale => 2
  | .milli => 3
  | .micro => 4
  | .nano => 5

/-- R55: the code of a base unit. -/
def baseCode : BaseUnit → Nat
  | .ampere => 0
  | .volt => 1
  | .ohm => 2
  | .hertz => 3
  | .farad => 4

/-- R55: Celsius = 1, Fahrenheit = 0. -/
def tempCode : TempUnit → Nat
  | .celsius => 1
  | .fahrenheit => 0

/-- R55: Negative = 1, Positive = 0. -/
def signCode : Sign → Nat
  | .negative => 1
  | .positive => 0

end Sys2Proof.Machine
end

