-- ==== Sys2Proof/Machine/ValueResolver.lean ====
section
/-! DEFINITION. The value resolver (spec R81 to R94): the digit formatter, the unit table with the entries the
spec fixes, and the resolve query of the host. -/

namespace Sys2Proof.Machine

/-- R84: char(x) = 0x30 + x. -/
def digitChar (n : Nat) : Char := Char.ofNat (0x30 + n)

/-- The decimal digits of a number, given at least as much fuel as it has digits. -/
def decimalFuel : Nat → Nat → List Char
  | 0, _ => []
  | fuel + 1, n => if n < 10 then [digitChar n] else decimalFuel fuel (n / 10) ++ [digitChar (n % 10)]

/-- R83: a number as a decimal integer without leading zeros, `"0"` when it is 0. -/
def decimal (n : Nat) : List Char := decimalFuel (n + 1) n

/-- R84: the value of a run of digits, most significant first. -/
def digitsValue (ds : List Digit) : Nat := ds.foldl (fun v d => 10 * v + d.val) 0

/-- R84, R82: the integer part of the leading `4 - k` digits, then, if `k` is not 0, the point and exactly the
last `k` digits, zeros included. -/
def formatDigits (p : Placement) (d : DigitGroup) : List Char :=
  let k := fractionDigits p
  let intText := decimal (digitsValue ((digitList d).take (4 - k)))
  if k = 0 then intText
  else intText ++ '.' :: ((digitList d).drop (4 - k)).map (fun x => digitChar x.val)

/-- R88, R89, R86: the unit table with the entries the spec fixes, the 4 that are `Some` and the 50 that are
`None`; every other entry is the parameter's. -/
def unitTableOf (u : UnitTable) (r : RangeCode) (f : FunctionCode) : Option (Placement × UnitDescriptor) :=
  match r, f with
  | .range0, .voltage => some (.minus3, ⟨.noScale, .volt⟩)
  | .range2, .voltage => some (.minus1, ⟨.noScale, .volt⟩)
  | .range5, .ohm => some (.minus2, ⟨.mega, .ohm⟩)
  | .range0, .manualAmpere => some (.minus3, ⟨.noScale, .ampere⟩)
  | _, .temperature => none
  | _, .continuity => none
  | _, .diode => none
  | _, .adp0 => none
  | _, .adp1 => none
  | _, .adp2 => none
  | _, .adp3 => none
  | .range3, .microAmpere => none
  | _, _ => u r f

/-- R90: what the table says of a reading: the placement it used (carried on the port, R58) and the value. -/
def resolveWith (u : UnitTable) (r : RangeCode) (f : FunctionCode) (d : DigitGroup) :
    Option (Placement × MeasurementValue) :=
  match unitTableOf u r f with
  | none => none
  | some (p, unit) => some (p, ⟨formatDigits p d, unit⟩)

/-- R90: `resolve(range, function, digits) -> Option MeasurementValue`, with this block's `UNIT_TABLE`. -/
def resolve (r : RangeCode) (f : FunctionCode) (d : DigitGroup) : Option MeasurementValue :=
  (resolveWith Config.unitTableParam r f d).map Prod.snd

/-- R58: the answer of a query on the resolve port. -/
def replyOf : Option (Placement × MeasurementValue) → ResolverReply
  | none => .absent
  | some (p, v) => .found p v

/-- R93, R94: a query by port codes. A code outside its type is refused; otherwise the port carries the answer
and nothing else changes. -/
def queryCodes (range : BitVec 3) (function : BitVec 4) (digits : BitVec 16) (s : State) :
    Host.Outcome State Fault Refusal :=
  match rangeOfIndex range.toNat with
  | none => .refused (.rangeCodeOutOfType range)
  | some r =>
  match functionOfIndex function.toNat with
  | none => .refused (.functionCodeOutOfType function)
  | some f =>
  match digitsOfNibbles (digits.toNat / 2 ^ 12) (digits.toNat / 2 ^ 8 % 16)
      (digits.toNat / 2 ^ 4 % 16) (digits.toNat % 16) with
  | none => .refused (.digitOutOfType digits)
  | some d => .next (s.answer (replyOf (resolveWith Config.unitTableParam r f d)))

/-- R93, R56, R92: a query by a whole packed Record: its range is bits 2:0, its digit nibbles are bits 18:3 and
its function is bits 22:19; its flags are not read. -/
def queryPacked (payload : BitVec 30) (s : State) : Host.Outcome State Fault Refusal :=
  queryCodes (BitVec.ofNat 3 (payload.toNat % 8)) (BitVec.ofNat 4 (payload.toNat / 2 ^ 19 % 16))
    (BitVec.ofNat 16 (payload.toNat / 2 ^ 3 % 2 ^ 16)) s

end Sys2Proof.Machine
end

