-- ==== Sys2Proof/Machine/HostOps.lean ====
section
/-! DEFINITION. What one operation of the host does (spec R93, R95, R120, R126), and the host-level fold `feed_all`
(R104). -/

namespace Sys2Proof.Machine

/-- R95: `feed(byte)`, the block's only step: the row of the byte's class runs. The stream rejects no byte (R44). -/
def feed (b : Byte) (s : State) : Host.Outcome State Fault Refusal := exec (classify b) s

/-- One operation of the host. -/
def runOp : HostOp → State → Host.Outcome State Fault Refusal
  | .feed b, s => feed b s
  | .reset, s => .next s.resetBlock
  | .query range function digits, s => queryCodes range function digits s
  | .queryRecord payload, s => queryPacked payload s

/-- R104: feed each byte in order and collect the outcomes that are not `None`; the state persists after the call.
(No feed stops, R115; were one to stop, the bytes after it would not be fed.) -/
def feedAll : List Byte → State → State × List StepOutcome
  | [], s => (s, [])
  | b :: bs, s =>
    match feed b s with
    | .next s' =>
      let rest := feedAll bs s'
      (rest.1, if s'.out = .none then rest.2 else s'.out :: rest.2)
    | .fault _ => (s, [])
    | .refused _ => (s, [])

/-- The host presents the bytes of a stream, in order, after the operations it has presented before. -/
def State.presentStream (bs : List Byte) (s : State) : State :=
  s.withPending (s.pending ++ bs.map HostOp.feed)

end Sys2Proof.Machine
end

