-- ==== Sys2Proof/Machine/Step.lean ====
section
/-! DEFINITION. One step of the machine, and the placing of an input byte where the next step takes it from. -/

namespace Sys2Proof.Machine

/-- One transaction: the ports are emptied (`quiet`), the host's next operation is taken and done. With nothing
presented the block acts on nothing and holds `st` and `buf` (R124, R134). -/
def step (s : State) : Host.Outcome State Fault Refusal :=
  match s.pending with
  | [] => .next s.quiet
  | op :: rest => runOp op (s.quiet.withPending rest)

/-- The byte is put at the stream input, before everything else the host has presented: the very next step
feeds it (R95). -/
def State.withFetchWord (s : State) (nbits w : Nat) : State :=
  s.withPending (.feed (tableByteOf nbits w) :: s.pending)

end Sys2Proof.Machine
end

