-- ==== Sys2Proof/Machine/Ports.lean ====
section
/-! DEFINITION. The physical encodings of spec R14, R15 and R55 to R59 (decision D3): the registers and the output
ports as bits. They are views of the state; the abstract types are the normative ones (30_encoding.md, section 4). -/

namespace Sys2Proof.Machine

/-- R14: `st` as one bit, `Idle` = 0 and `AfterCr` = 1. -/
def stCode : FramerState → BitVec 1
  | .idle => 0#1
  | .afterCr => 1#1

/-- R15: the length counter of the buffer, 4 bits with legal values 0 to 9. -/
def lengthCounter (s : State) : BitVec 4 := BitVec.ofNat 4 s.buf.length

/-- R15, R28: byte slot `buf[i]`; a slot at or beyond `len(buf)` holds no value. -/
def bufferSlot (s : State) (i : Fin 9) : Option Byte := s.buf[i.val]?

/-- A flag as a number, 1 for true. -/
def flagCode (x : Bool) : Nat := if x then 1 else 0

/-- Fields of given widths side by side, the first in the lowest bits. -/
def joinBits : List Nat → List Nat → Nat
  | w :: ws, v :: vs => v + 2 ^ w * joinBits ws vs
  | _, _ => 0

/-- A number cut into fields of given widths, the lowest bits first. -/
def splitBits : List Nat → Nat → List Nat
  | [], _ => []
  | w :: ws, n => n % 2 ^ w :: splitBits ws (n / 2 ^ w)

/-- R56: the widths of the Record payload from bit 0 up: range 2:0, d3 6:3, d2 10:7, d1 14:11, d0 18:15, function
22:19, then one bit each for temp_unit 23, sign 24, battery_low 25, overflow 26, dc 27, ac 28 and auto 29. -/
def recordWidths : List Nat := [3, 4, 4, 4, 4, 4, 1, 1, 1, 1, 1, 1, 1]

/-- R56, R55: the codes of a Record's fields, in the order of `recordWidths`. -/
def recordCodes (r : Record) : List Nat :=
  [rangeIndex r.range, r.digits.d3.val, r.digits.d2.val, r.digits.d1.val, r.digits.d0.val,
   functionIndex r.function, tempCode r.status.tempUnit, signCode r.status.sign,
   flagCode r.status.batteryLow, flagCode r.status.overflow,
   flagCode r.option.dc, flagCode r.option.ac, flagCode r.option.auto]

/-- R56: the Record payload, 30 bits. -/
def packRecord (r : Record) : BitVec 30 := BitVec.ofNat 30 (joinBits recordWidths (recordCodes r))

/-- R56 read back from the codes: `none` where a field is outside its type (I-6). -/
def recordOfCodes : List Nat → Option Record
  | [range, d3, d2, d1, d0, function, temp, sign, battery, overflow, dc, ac, auto] =>
    match rangeOfIndex range, functionOfIndex function, digitsOfNibbles d0 d1 d2 d3 with
    | some r, some f, some d =>
      some { range := r, digits := d, function := f,
             status := { tempUnit := if temp = 1 then .celsius else .fahrenheit,
                         sign := if sign = 1 then .negative else .positive,
                         batteryLow := battery == 1, overflow := overflow == 1 },
             option := { dc := dc == 1, ac := ac == 1, auto := auto == 1 } }
    | _, _, _ => none
  | _ => none

/-- R56: the Record a payload packs, if every field is within its type. -/
def unpackRecord (w : BitVec 30) : Option Record := recordOfCodes (splitBits recordWidths w.toNat)

/-- R111: the kind code of an error. -/
def errorKind : FrameError → Nat
  | .lengthError _ => 0
  | .invalidRange _ => 1
  | .invalidFunction _ => 2
  | .invalidDigit _ => 3

/-- R57: the value an error carries, in 8 bits (D20: every length the block produces fits). -/
def errorInfo : FrameError → Byte
  | .lengthError len => BitVec.ofNat 8 len
  | .invalidRange b => b
  | .invalidFunction b => b
  | .invalidDigit b => b

/-- R57: the error payload: kind in bits 1:0, length or byte in bits 9:2, bits 29:10 zero. -/
def packError (e : FrameError) : BitVec 30 := 
  BitVec.ofNat 30 (joinBits [2, 8] [errorKind e, (errorInfo e).toNat])

/-- R59: the outcome word of a step. -/
structure OutcomeWord where
  outValid : Bool
  outIsErr : Bool
  payload : BitVec 30
  deriving DecidableEq, Repr

/-- R59: `None` is all zeros; `Ok` and `Err` are valid, told apart by `out_is_err`. -/
def packOutcome : StepOutcome → OutcomeWord
  | .none => ⟨false, false, 0#30⟩
  | .ok r => ⟨true, false, packRecord r⟩
  | .err e => ⟨true, true, packError e⟩

/-- The output port as the host sees it after a transaction (R18). -/
def outPort (s : State) : OutcomeWord := packOutcome s.out

/-- R58: the word on the resolve port. -/
structure ResolverWord where
  resValid : Bool
  placement : BitVec 2
  scale : BitVec 3
  base : BitVec 3
  textLen : BitVec 3
  text : List Byte
  deriving DecidableEq, Repr

/-- R84, I-G3: the ASCII byte of a character. -/
def asciiByte (c : Char) : Byte := BitVec.ofNat 8 c.toNat

/-- R58: a found value is valid, with its codes and its text; anything else is all zeros. -/
def packReply : ResolverReply → ResolverWord
  | .noQuery => ⟨false, 0#2, 0#3, 0#3, 0#3, []⟩
  | .absent => ⟨false, 0#2, 0#3, 0#3, 0#3, []⟩
  | .found p v =>
    ⟨true, BitVec.ofNat 2 (fractionDigits p), BitVec.ofNat 3 (scaleCode v.unit.scale),
      BitVec.ofNat 3 (baseCode v.unit.base), BitVec.ofNat 3 v.text.length, v.text.map asciiByte⟩

/-- The resolve port as the host sees it after a transaction (R93). -/
def resolvePort (s : State) : ResolverWord := packReply s.reply

/-- R60: an input stream written as characters. -/
def streamBytes (cs : List Char) : List Byte := cs.map asciiByte

end Sys2Proof.Machine
end

