-- ==== Sys2Proof/Safety.lean ====
section
/-! DEFINITION. What holds of every state the block can be in (spec R15, R30), which host operations are within
their types (R94), and which states a run from reset reaches. -/

namespace Sys2Proof.Machine

/-- R15, R53: the buffer holds at most 9 bytes and never a terminator; R30: it is empty in `AfterCr`. -/
abbrev State.Inv (s : State) : Prop :=
  s.buf.length ≤ FRAME_LEN ∧ (∀ b ∈ s.buf, isData b = true) ∧ (s.st = .afterCr → s.buf = [])

/-- R118: the lengths a LengthError of the block can carry. -/
abbrev lengthInRange (n : Nat) : Prop := n ≤ 8 ∨ n = 10

/-- R118, R109: the outcome on the port carries no other length. -/
abbrev State.OutcomeInRange (s : State) : Prop := ∀ n, s.out = .err (.lengthError n) → lengthInRange n

/-- R94: an operation whose port codes are all within their types; only a resolve query can fail this. -/
def HostOp.inType : HostOp → Bool
  | .feed _ => true
  | .reset => true
  | .query range function digits =>
    (rangeOfIndex range.toNat).isSome && (functionOfIndex function.toNat).isSome
      && (digitsOfNibbles (digits.toNat / 2 ^ 12) (digits.toNat / 2 ^ 8 % 16)
        (digits.toNat / 2 ^ 4 % 16) (digits.toNat % 16)).isSome
  | .queryRecord payload => (unpackRecord payload).isSome

/-- The error of a field decoder's result, if it is one. -/
def errorOf {α : Type} : Except FrameError α → Option FrameError
  | .ok _ => none
  | .error e => some e

/-- R65, R72: what evaluating a byte in its format gives: the field output of the row it decodes to, run by `exec`,
or its error. -/
def fieldOf (T : FuncTable) (s : State) (slot : Slot) (b : Byte) : Option FieldValue :=
  match decodeIn T slot b with
  | .error e => some (.rejected e)
  | .ok i =>
    match exec i s with
    | .next t => t.field
    | .fault _ => none
    | .refused _ => none

/-- The nine field outputs of a frame, byte by byte in the frame's layout (R45). -/
def frameFields (T : FuncTable) (s : State) (bytes : List Byte) : List (Option FieldValue) :=
  List.zipWith (fieldOf T s) frameLayout bytes

/-- The error on a field output, if it carries one. -/
def rejectionOf : Option FieldValue → Option FrameError
  | some (.rejected e) => some e
  | _ => none

/-- The field outputs of a frame whose Record is `r`; the unused byte gives none (R52). -/
def fieldsOfRecord (r : Record) : List (Option FieldValue) :=
  [some (.range r.range), some (.digit r.digits.d0), some (.digit r.digits.d1), some (.digit r.digits.d2),
   some (.digit r.digits.d3), some (.function r.function), some (.status r.status), none,
   some (.option r.option)]

/-- The number a run of decimal characters reads as. -/
def readDecimal (cs : List Char) : Nat := cs.foldl (fun v c => 10 * v + (c.toNat - 0x30)) 0

/-- A character is one of `'0'` to `'9'`. -/
def isDecimalChar (c : Char) : Bool := 0x30 ≤ c.toNat && c.toNat ≤ 0x39

/-- R88, R89: a unit table has the 54 entries the spec fixes. -/
structure FixedUnitEntries (u : UnitTable) : Prop where
  range0Voltage : u .range0 .voltage = some (.minus3, ⟨.noScale, .volt⟩)
  range2Voltage : u .range2 .voltage = some (.minus1, ⟨.noScale, .volt⟩)
  range5Ohm : u .range5 .ohm = some (.minus2, ⟨.mega, .ohm⟩)
  range0ManualAmpere : u .range0 .manualAmpere = some (.minus3, ⟨.noScale, .ampere⟩)
  range3MicroAmpere : u .range3 .microAmpere = none
  absent : ∀ r, ∀ f ∈ [FunctionCode.temperature, .continuity, .diode, .adp0, .adp1, .adp2, .adp3], u r f = none

/-- The outcomes a run of `k` steps puts on the output port, without the `None`s, in order (R104, R109). -/
def outcomesOfRun : Nat → State → List StepOutcome
  | 0, _ => []
  | k + 1, s =>
    match Sys2Proof.Machine.step s with
    | .next t => if t.out = .none then outcomesOfRun k t else t.out :: outcomesOfRun k t
    | .fault _ => []
    | .refused _ => []

/-- R105: feeding a stream chunk by chunk, and the outcomes in order. -/
def feedChunks : List (List Byte) → State → State × List StepOutcome
  | [], s => (s, [])
  | c :: cs, s =>
    let first := feedAll c s
    let rest := feedChunks cs first.1
    (rest.1, first.2 ++ rest.2)

/-- R93: the digit nibbles of a query, d0 highest. -/
def digitsWord (d : DigitGroup) : BitVec 16 :=
  BitVec.ofNat 16 (d.d0.val * 2 ^ 12 + d.d1.val * 2 ^ 8 + d.d2.val * 2 ^ 4 + d.d3.val)

/-- The states a run reaches: reset, whatever the host presents next, and steps. -/
inductive Reachable : State → Prop where
  | reset : Reachable State.reset
  | present (s : State) (ops : List HostOp) : Reachable s → Reachable (s.withPending (s.pending ++ ops))
  | step (s t : State) : Reachable s → Sys2Proof.Machine.step s = .next t → Reachable t

end Sys2Proof.Machine
end

