-- ==== Sys2Proof/Certificates/Slice0/Obligations.lean ====
section
/-! DEFINITION. The statements about the model, for the provers. Each docstring names the rules it comes from; a
statement that rests on a choice of the spec's own (a decision D<n>) or of the model's (a log entry) says so. -/

open Sys2Proof Sys2Proof.Machine

/-! ### Decoding and encoding -/

/-- R44, R47 to R52, R67: the byte of a well-formed instruction decodes, in its own format, to that instruction,
whatever legal `FUNC_TABLE` the block has. (The range pairing is the spec's decision D7, the injectivity of the
function table its decision D8.) -/
def Obligations.EncodedInstructionDecodesToItself : Prop :=
  ∀ (T : FuncTable) (i : Instr), i.wf = true → decodeIn T i.slot (encodeIn T i) = .ok i

/-- The other direction: a byte that decodes is the encoding of the well-formed instruction it decodes to. -/
def Obligations.DecodedByteIsItsEncoding : Prop :=
  ∀ (T : FuncTable) (slot : Slot) (b : Byte) (i : Instr),
    decodeIn T slot b = .ok i → i.wf = true ∧ encodeIn T i = b

/-- Bytes written out from the spec's encodings, one or more of each format (R44, R47, R48, R49, R50 to R52). -/
def Obligations.SpecBytesDecodeToTheirRows : Prop :=
  ∀ T : FuncTable,
    decodeIn T .stream 0b00001101#8 = .ok .feedCr ∧
    decodeIn T .stream 0b00001010#8 = .ok .feedLf ∧
    decodeIn T .stream 0b00110000#8 = .ok (.feedData 0b00110000#8) ∧
    decodeIn T .range 0b00110101#8 = .ok .range5 ∧
    decodeIn T .digit 0b00111001#8 = .ok .digit9 ∧
    decodeIn T .function 0b00111011#8 = .ok .fnVoltage ∧
    decodeIn T .status 0b00111100#8 = .ok (.status 0b00111100#8) ∧
    decodeIn T .unused 0b00110000#8 = .ok (.unusedByte7 0b00110000#8) ∧
    decodeIn T .option 0b00111010#8 = .ok (.option 0b00111010#8) ∧
    decodeIn T .range 0b00110111#8 = .error (.invalidRange 0b00110111#8) ∧
    decodeIn T .digit 0b00111010#8 = .error (.invalidDigit 0b00111010#8)

/-- R44: on the stream a byte is `FEED_CR` iff it is 0x0D, `FEED_LF` iff it is 0x0A, and otherwise `FEED_DATA`
with that byte; the framer rejects none. -/
def Obligations.ByteClassesAreExact : Prop :=
  ∀ (T : FuncTable) (b : Byte),
    (decodeIn T .stream b = .ok .feedCr ↔ b.toNat = 0x0D) ∧
    (decodeIn T .stream b = .ok .feedLf ↔ b.toNat = 0x0A) ∧
    (decodeIn T .stream b = .ok (.feedData b) ↔ b.toNat ≠ 0x0D ∧ b.toNat ≠ 0x0A)

/-- R95: a step whose next operation feeds a byte that the stream decodes to `i` is `exec` of `i`, in the state where
the ports are empty and the operation is taken (log entries 1 and 4 say what the model adds around `exec`). -/
def Obligations.StepRunsTheDecodedInstruction : Prop :=
  ∀ (s : State) (b : Byte) (rest : List HostOp) (i : Instr),
    s.pending = .feed b :: rest → decode .stream b = .ok i → i.wf = true →
    step s = exec i { s with out := .none, reply := .noQuery, field := none, pending := rest }

/-- R65, R72, R75: the first byte of a full buffer that its format rejects gives its own error, which carries that
byte, as the outcome of the step that feeds a terminator; the decoders behind it are not reached, and no field output
is left (log entries 1, 3 and 4 name the fields of the model's own). -/
def Obligations.RejectedFieldByteGivesItsError : Prop :=
  ∀ (s : State) (t : Byte) (rest : List HostOp) (i : Nat) (slot : Slot) (b : Byte) (e : FrameError),
    s.pending = .feed t :: rest → isData t = false → s.st = .idle → s.buf.length = 9 →
    frameLayout[i]? = some slot → s.buf[i]? = some b → decode slot b = .error e →
    (∀ (j : Nat) (slot' : Slot) (b' : Byte), j < i → frameLayout[j]? = some slot' → s.buf[j]? = some b' →
      ∃ k, decode slot' b' = .ok k) →
    ((slot = .range ∧ e = .invalidRange b) ∨ (slot = .digit ∧ e = .invalidDigit b) ∨
      (slot = .function ∧ e = .invalidFunction b)) ∧
    step s = .next { st := if t = CR then .afterCr else .idle, buf := [], out := .err e, reply := .noQuery,
                     field := none, pending := rest }

/-- The byte `withFetchWord` places is the one the next step runs, as `decodeTableWord` reads it (log entries 1
and 2: the model's own interface). -/
def Obligations.PlacedByteRunsNext : Prop :=
  ∀ (s : State) (w : Nat), w < 256 → ∃ i, decodeTableWord 8 w = some i ∧
    step (s.withFetchWord 8 w) = exec i { s with out := .none, reply := .noQuery, field := none }

/-! ### Field decoders -/

/-- R63 (its in-order pairing is the spec's decision D7): 0x30 + n is Range n, every other byte its error. -/
def Obligations.RangeDecoderIsExact : Prop :=
  ∀ b : Byte,
    (0x30 ≤ b.toNat ∧ b.toNat ≤ 0x36 → ∃ r, decodeRange b = .ok r ∧ 0x30 + rangeIndex r = b.toNat) ∧
    (b.toNat < 0x30 ∨ 0x36 < b.toNat → decodeRange b = .error (.invalidRange b))

/-- R68: the ASCII digits give their value, every other byte its error. -/
def Obligations.DigitDecoderIsExact : Prop :=
  ∀ b : Byte,
    (0x30 ≤ b.toNat ∧ b.toNat ≤ 0x39 →
      ∃ d, decodeDigit b = .ok d ∧ d.val = b.toNat % 16 ∧ 0x30 + d.val = b.toNat) ∧
    (b.toNat < 0x30 ∨ 0x39 < b.toNat → decodeDigit b = .error (.invalidDigit b))

/-- R66: the four fixed entries, then the table; every byte outside the table's domain gives its error, and every
byte outside 0x30..0x3F does so whatever the table is. -/
def Obligations.FunctionDecoderFollowsTheTable : Prop :=
  ∀ (T : FuncTable) (b : Byte),
    decodeFunction T 0x33#8 = .ok .ohm ∧ decodeFunction T 0x39#8 = .ok .manualAmpere ∧
    decodeFunction T 0x3B#8 = .ok .voltage ∧ decodeFunction T 0x3E#8 = .ok .adp0 ∧
    (∀ f, decodeFunction T b = .ok f ↔ T.entry b = some f) ∧
    (decodeFunction T b = .error (.invalidFunction b) ↔ T.entry b = none) ∧
    (b.toNat < 0x30 ∨ 0x3F < b.toNat → decodeFunction T b = .error (.invalidFunction b))

/-- R67 (property 3 is the spec's decision D8) and the last sentence of R48: every function code has exactly one
byte, and exactly one byte of 0x30..0x3F is invalid. -/
def Obligations.FunctionTableIsABijection : Prop :=
  ∀ T : FuncTable,
    (∀ f, ∃! b, decodeFunction T b = .ok f) ∧
    (∃! b : Byte, 0x30 ≤ b.toNat ∧ b.toNat ≤ 0x3F ∧ decodeFunction T b = .error (.invalidFunction b))

/-- R70 (polarity of battery and Fahrenheit: decision D14; ignored bits: D15): each flag is its one bit, so bits 7
to 4 change nothing. -/
def Obligations.StatusFlagsAreTheLowBits : Prop :=
  ∀ b : Byte,
    ((decodeStatus b).tempUnit = .celsius ↔ b.toNat / 8 % 2 = 1) ∧
    ((decodeStatus b).sign = .negative ↔ b.toNat / 4 % 2 = 1) ∧
    ((decodeStatus b).batteryLow = true ↔ b.toNat / 2 % 2 = 1) ∧
    ((decodeStatus b).overflow = true ↔ b.toNat % 2 = 1) ∧
    (∀ c : Byte, c.toNat % 16 = b.toNat % 16 → decodeStatus c = decodeStatus b)

/-- R71 (ignored bits: decision D15): each flag is its one bit, so bits 7 to 4 and bit 0 change nothing. -/
def Obligations.OptionFlagsAreTheirBits : Prop :=
  ∀ b : Byte,
    ((decodeOption b).dc = true ↔ b.toNat / 8 % 2 = 1) ∧
    ((decodeOption b).ac = true ↔ b.toNat / 4 % 2 = 1) ∧
    ((decodeOption b).auto = true ↔ b.toNat / 2 % 2 = 1) ∧
    (∀ c : Byte, c.toNat % 16 / 2 = b.toNat % 16 / 2 → decodeOption c = decodeOption b)

/-! ### The field rows as instructions: each gives its value and changes nothing else (R72). The field output that
carries the value is the model's own (log entry 3). -/

/-- R63, R72: RANGE0 to RANGE6. -/
def Obligations.RangeRowsGiveTheirCode : Prop :=
  ∀ s : State,
    exec .range0 s = .next { s with field := some (.range .range0) } ∧
    exec .range1 s = .next { s with field := some (.range .range1) } ∧
    exec .range2 s = .next { s with field := some (.range .range2) } ∧
    exec .range3 s = .next { s with field := some (.range .range3) } ∧
    exec .range4 s = .next { s with field := some (.range .range4) } ∧
    exec .range5 s = .next { s with field := some (.range .range5) } ∧
    exec .range6 s = .next { s with field := some (.range .range6) }

/-- R68, R72: DIGIT0 to DIGIT9. -/
def Obligations.DigitRowsGiveTheirDigit : Prop :=
  ∀ s : State,
    exec .digit0 s = .next { s with field := some (.digit 0) } ∧
    exec .digit1 s = .next { s with field := some (.digit 1) } ∧
    exec .digit2 s = .next { s with field := some (.digit 2) } ∧
    exec .digit3 s = .next { s with field := some (.digit 3) } ∧
    exec .digit4 s = .next { s with field := some (.digit 4) } ∧
    exec .digit5 s = .next { s with field := some (.digit 5) } ∧
    exec .digit6 s = .next { s with field := some (.digit 6) } ∧
    exec .digit7 s = .next { s with field := some (.digit 7) } ∧
    exec .digit8 s = .next { s with field := some (.digit 8) } ∧
    exec .digit9 s = .next { s with field := some (.digit 9) }

/-- R66, R67, R72: the fifteen FN_* rows. -/
def Obligations.FunctionRowsGiveTheirCode : Prop :=
  ∀ s : State,
    exec .fnAutoAmpere s = .next { s with field := some (.function .autoAmpere) } ∧
    exec .fnDiode s = .next { s with field := some (.function .diode) } ∧
    exec .fnFrequency s = .next { s with field := some (.function .frequency) } ∧
    exec .fnOhm s = .next { s with field := some (.function .ohm) } ∧
    exec .fnTemperature s = .next { s with field := some (.function .temperature) } ∧
    exec .fnContinuity s = .next { s with field := some (.function .continuity) } ∧
    exec .fnCapacitor s = .next { s with field := some (.function .capacitor) } ∧
    exec .fnAdp2 s = .next { s with field := some (.function .adp2) } ∧
    exec .fnManualAmpere s = .next { s with field := some (.function .manualAmpere) } ∧
    exec .fnAdp3 s = .next { s with field := some (.function .adp3) } ∧
    exec .fnVoltage s = .next { s with field := some (.function .voltage) } ∧
    exec .fnAdp1 s = .next { s with field := some (.function .adp1) } ∧
    exec .fnMicroAmpere s = .next { s with field := some (.function .microAmpere) } ∧
    exec .fnAdp0 s = .next { s with field := some (.function .adp0) } ∧
    exec .fnMilliAmpere s = .next { s with field := some (.function .milliAmpere) }

/-- R69 to R72, R52: STATUS and OPTION give their flags for every byte, and UNUSED_BYTE7 gives nothing (log entries 3
and 13). -/
def Obligations.FlagRowsTakeEveryByte : Prop :=
  ∀ (s : State) (b : Byte),
    exec (.status b) s = .next { s with field := some (.status (decodeStatus b)) } ∧
    exec (.unusedByte7 b) s = .next { s with field := none } ∧
    exec (.option b) s = .next { s with field := some (.option (decodeOption b)) }

/-! ### The frame decoder -/

/-- R74: any length but 9 is a `LengthError` with that length, whatever the bytes are. -/
def Obligations.WrongLengthIsALengthError : Prop :=
  ∀ (T : FuncTable) (bytes : List Byte), bytes.length ≠ 9 →
    decodeFrame T bytes = .error (.lengthError bytes.length)

/-- R75: of a 9-byte frame the error is the first in the order range, digits left to right, function, and there
is an error only if one of these fields has one. -/
def Obligations.FirstFieldErrorIsReported : Prop :=
  ∀ (T : FuncTable) (b0 b1 b2 b3 b4 b5 b6 b7 b8 : Byte),
    errorOf (decodeFrame T [b0, b1, b2, b3, b4, b5, b6, b7, b8]) =
      [errorOf (decodeRange b0), errorOf (decodeDigit b1), errorOf (decodeDigit b2), errorOf (decodeDigit b3),
       errorOf (decodeDigit b4), errorOf (decodeFunction T b5)].findSome? id

/-- R76: a Record comes of exactly the 9-byte frames whose field decoders give its fields. -/
def Obligations.RecordFieldsAreDecodedBytes : Prop :=
  ∀ (T : FuncTable) (bytes : List Byte) (r : Record),
    decodeFrame T bytes = .ok r ↔
      ∃ b0 b1 b2 b3 b4 b5 b6 b7 b8, bytes = [b0, b1, b2, b3, b4, b5, b6, b7, b8] ∧
        decodeRange b0 = .ok r.range ∧ decodeDigit b1 = .ok r.digits.d0 ∧ decodeDigit b2 = .ok r.digits.d1 ∧
        decodeDigit b3 = .ok r.digits.d2 ∧ decodeDigit b4 = .ok r.digits.d3 ∧
        decodeFunction T b5 = .ok r.function ∧ decodeStatus b6 = r.status ∧ decodeOption b8 = r.option

/-- R77: byte 7 never changes the result. -/
def Obligations.FrameByteSevenIsIgnored : Prop :=
  ∀ (T : FuncTable) (b0 b1 b2 b3 b4 b5 b6 x y b8 : Byte),
    decodeFrame T [b0, b1, b2, b3, b4, b5, b6, x, b8] = decodeFrame T [b0, b1, b2, b3, b4, b5, b6, y, b8]

/-- R45, R72, R73 to R76: the frame decoder is the opcode table's field rows run over the frame: it gives Record
`r` iff running each byte as the row it decodes to in its format leaves the fields of `r` on the field output, and
it gives the first error those outputs carry, in frame order. The field output is the model's own (log entry 3), and
that byte 7 leaves it empty is log entry 13. -/
def Obligations.FrameDecoderRunsTheFieldRows : Prop :=
  ∀ (T : FuncTable) (s : State) (bytes : List Byte), bytes.length = 9 →
    (∀ r, decodeFrame T bytes = .ok r ↔ frameFields T s bytes = fieldsOfRecord r) ∧
    (∀ e, decodeFrame T bytes = .error e ↔ (frameFields T s bytes).findSome? rejectionOf = some e)

/-! ### The value resolver -/

/-- R81 to R84 (the `"0"` of an all-zero integer part is the spec's decision D10): the text is an integer part
without leading zeros and, unless the placement is Zero, a point and exactly k digits; read as one number without
the point it is the magnitude of the digit group; it is 1 to 5 characters long. -/
def Obligations.FormattedTextIsTheScaledMagnitude : Prop :=
  ∀ (p : Placement) (d : DigitGroup), ∃ ipart frac : List Char,
    formatDigits p d = ipart ++ (if p = .zero then [] else '.' :: frac) ∧
    frac.length = fractionDigits p ∧ ipart ≠ [] ∧
    (∀ c ∈ ipart ++ frac, isDecimalChar c = true) ∧
    (ipart.head? = some '0' → ipart = ['0']) ∧
    readDecimal ipart * 10 ^ fractionDigits p + readDecimal frac = magnitude d ∧
    1 ≤ (formatDigits p d).length ∧ (formatDigits p d).length ≤ 5

/-- R88: the four entries the source fixes as `Some`, whatever the parameter is. -/
def Obligations.UnitTableHasItsFixedEntries : Prop :=
  ∀ u : UnitTable,
    unitTableOf u .range0 .voltage = some (.minus3, ⟨.noScale, .volt⟩) ∧
    unitTableOf u .range2 .voltage = some (.minus1, ⟨.noScale, .volt⟩) ∧
    unitTableOf u .range5 .ohm = some (.minus2, ⟨.mega, .ohm⟩) ∧
    unitTableOf u .range0 .manualAmpere = some (.minus3, ⟨.noScale, .ampere⟩)

/-- R89: the entries the source fixes as `None`, whatever the parameter is. -/
def Obligations.UnitTableHasItsFixedAbsences : Prop :=
  ∀ u : UnitTable, unitTableOf u .range3 .microAmpere = none ∧
    ∀ r : RangeCode, unitTableOf u r .temperature = none ∧ unitTableOf u r .continuity = none ∧
      unitTableOf u r .diode = none ∧ unitTableOf u r .adp0 = none ∧ unitTableOf u r .adp1 = none ∧
      unitTableOf u r .adp2 = none ∧ unitTableOf u r .adp3 = none

/-- R86: the model loses no table: it leaves every unit table with the fixed entries as it is, and every table it
makes has them. -/
def Obligations.UnitTableCoversEveryLegalTable : Prop :=
  ∀ u : UnitTable, FixedUnitEntries (unitTableOf u) ∧ (FixedUnitEntries u → unitTableOf u = u)

/-- R90: `resolve` is `None` where the table is, and otherwise the formatted digits with the table's unit. -/
def Obligations.ResolveFollowsTheUnitTable : Prop :=
  ∀ (r : RangeCode) (f : FunctionCode) (d : DigitGroup),
    (unitTableOf Config.unitTableParam r f = none → resolve r f d = none) ∧
    (∀ p u, unitTableOf Config.unitTableParam r f = some (p, u) → resolve r f d = some ⟨formatDigits p d, u⟩)

/-- R93, R58: a query with codes within their types is answered on the resolve port, from the range, function and
digits alone; `st` and `buf` stay, and no outcome is produced. (Ports and nibble order: the spec's decisions D2 and
D3, log entries 4 and 15.) -/
def Obligations.ResolveQueryIsAnswered : Prop :=
  ∀ (s : State) (rest : List HostOp) (r : RangeCode) (f : FunctionCode) (d : DigitGroup),
    s.pending = .query (BitVec.ofNat 3 (rangeIndex r)) (BitVec.ofNat 4 (functionIndex f)) (digitsWord d) :: rest →
    step s = .next { s with out := .none, field := none, pending := rest,
                            reply := replyOf (resolveWith Config.unitTableParam r f d) }

/-- R92, R93, R56: a query with a packed Record is answered as one with its range, function and digits: no flag of
it changes anything. -/
def Obligations.PackedQueryReadsNoFlag : Prop :=
  ∀ (s : State) (rest : List HostOp) (r : Record),
    s.pending = .queryRecord (packRecord r) :: rest →
    step s = .next { s with out := .none, field := none, pending := rest,
                            reply := replyOf (resolveWith Config.unitTableParam r.range r.function r.digits) }

/-- R115, R94: the next operation of the host always completes, except a resolve query that presents a code
outside its type, and that one is always refused (decision D3, log entry 15). -/
def Obligations.OnlyOutOfTypeQueriesAreRefused : Prop :=
  ∀ (s : State) (op : HostOp) (rest : List HostOp), s.pending = op :: rest →
    (op.inType = true → ∃ t, step s = .next t) ∧ (op.inType = false → ∃ why, step s = .refused why)

/-! ### The output packing -/

/-- R56, R55 (decision D3, log entry 14): each field of a Record stands at its bits of the payload, packing loses
nothing, and the only payloads that read back as a Record are packed Records. -/
def Obligations.RecordPackingRoundTrips : Prop :=
  (∀ r : Record,
    let w := packRecord r
    w.toNat % 8 = rangeIndex r.range ∧ w.toNat / 2 ^ 3 % 16 = r.digits.d3.val ∧
    w.toNat / 2 ^ 7 % 16 = r.digits.d2.val ∧ w.toNat / 2 ^ 11 % 16 = r.digits.d1.val ∧
    w.toNat / 2 ^ 15 % 16 = r.digits.d0.val ∧ w.toNat / 2 ^ 19 % 16 = functionIndex r.function ∧
    (w.getLsbD 23 = true ↔ r.status.tempUnit = .celsius) ∧ (w.getLsbD 24 = true ↔ r.status.sign = .negative) ∧
    w.getLsbD 25 = r.status.batteryLow ∧ w.getLsbD 26 = r.status.overflow ∧
    w.getLsbD 27 = r.option.dc ∧ w.getLsbD 28 = r.option.ac ∧ w.getLsbD 29 = r.option.auto) ∧
  (∀ r : Record, unpackRecord (packRecord r) = some r) ∧
  (∀ (w : BitVec 30) (r : Record), unpackRecord w = some r → packRecord r = w)

/-- R57, R59, R111, R118 (decision D3, log entry 14): the word of each outcome (the error kind in bits 1:0, the
length or the byte in bits 9:2, bits 29:10 zero), and two outcomes the block can produce with the same word are
equal. -/
def Obligations.OutcomeWordsAreOneToOne : Prop :=
  packOutcome .none = ⟨false, false, 0#30⟩ ∧
  (∀ r, packOutcome (.ok r) = ⟨true, false, packRecord r⟩) ∧
  (∀ e, (packOutcome (.err e)).outValid = true ∧ (packOutcome (.err e)).outIsErr = true) ∧
  (∀ n, lengthInRange n → (packOutcome (.err (.lengthError n))).payload.toNat = 0 + 4 * n) ∧
  (∀ b, (packOutcome (.err (.invalidRange b))).payload.toNat = 1 + 4 * b.toNat) ∧
  (∀ b, (packOutcome (.err (.invalidFunction b))).payload.toNat = 2 + 4 * b.toNat) ∧
  (∀ b, (packOutcome (.err (.invalidDigit b))).payload.toNat = 3 + 4 * b.toNat) ∧
  ∀ o o' : StepOutcome,
    (∀ n, o = .err (.lengthError n) → lengthInRange n) → (∀ n, o' = .err (.lengthError n) → lengthInRange n) →
    packOutcome o = packOutcome o' → o = o'

/-- R14, R15, R28 (decisions D3 and D11, log entry 14): the one bit of `st` is 0 in Idle and 1 in AfterCr; under the
invariant the 4-bit counter is the buffer's length, exactly the slots below it hold a value, and slot i holds byte
i. -/
def Obligations.BufferRegistersShowTheBuffer : Prop :=
  ∀ s : State, s.Inv →
    (stCode s.st = 0#1 ↔ s.st = .idle) ∧ (stCode s.st = 1#1 ↔ s.st = .afterCr) ∧
    (lengthCounter s).toNat = s.buf.length ∧
    ∀ i : Fin 9, bufferSlot s i = s.buf[i.val]? ∧ ((bufferSlot s i).isSome ↔ i.val < (lengthCounter s).toNat)

/-! ### The stream framer, arm by arm -/

/-- R96: Idle, CR. That a boundary always emits, LengthError 0 on an empty buffer, is the spec's decision D5 (R106, log
entry 9). -/
def Obligations.CrInIdleIsABoundary : Prop :=
  ∀ s : State, s.st = .idle →
    exec .feedCr s = .next { s with out := outcomeOf (decodeFrame Config.funcTable s.buf), buf := [], st := .afterCr }

/-- R97: Idle, LF. The source's "emit result if any" is read as always true by the spec's decision D5 (R106, log entry
9), on an empty buffer too. -/
def Obligations.LfInIdleIsABoundary : Prop :=
  ∀ s : State, s.st = .idle →
    exec .feedLf s = .next { s with out := outcomeOf (decodeFrame Config.funcTable s.buf), buf := [], st := .idle }

/-- R98: Idle, DATA, with room in the buffer. -/
def Obligations.DataInIdleAccumulates : Prop :=
  ∀ (s : State) (b : Byte), s.st = .idle → s.buf.length < 9 → isData b = true →
    exec (.feedData b) s = .next { s with out := .none, buf := s.buf ++ [b], st := .idle }

/-- R99: Idle, DATA, with 9 bytes in the buffer: the oldest byte is dropped and the error carries 10. That the window
slides and the error comes at the data byte is the spec's decision D6 against scenario 6 (log entry 9), and the value
10 is R100's own derivation. -/
def Obligations.DataOnFullBufferSlides : Prop :=
  ∀ (s : State) (b : Byte), s.st = .idle → s.buf.length = 9 → isData b = true →
    exec (.feedData b) s =
      .next { s with out := .err (.lengthError 10), buf := s.buf.tail ++ [b], st := .idle }

/-- R101: AfterCr, LF: swallowed. -/
def Obligations.LfAfterCrIsSwallowed : Prop :=
  ∀ s : State, s.st = .afterCr → exec .feedLf s = .next { s with out := .none, buf := [], st := .idle }

/-- R102 (the spec's decision D4, conflict C1): AfterCr, CR is a boundary on the empty buffer. -/
def Obligations.CrAfterCrIsAnEmptyBoundary : Prop :=
  ∀ s : State, s.st = .afterCr → s.buf = [] →
    exec .feedCr s = .next { s with out := .err (.lengthError 0), buf := [], st := .afterCr }

/-- R103: AfterCr, DATA: the first byte of a new frame. That no overflow check is needed is the spec's own inference from
R30, whose empty buffer is a hypothesis here. -/
def Obligations.DataAfterCrStartsAFrame : Prop :=
  ∀ (s : State) (b : Byte), s.st = .afterCr → s.buf = [] → isData b = true →
    exec (.feedData b) s = .next { s with out := .none, buf := [b], st := .idle }

/-- R106 (decision D5), R98, R99, R101, R103: a byte of the stream gives no outcome exactly when it is an LF
swallowed after a CR, or a data byte that finds room. -/
def Obligations.OutcomeIsSilentOnlyWhereTheRulesSay : Prop :=
  ∀ (s t : State) (b : Byte), s.Inv → feed b s = .next t →
    (t.out = .none ↔ (b = LF ∧ s.st = .afterCr) ∨ (isData b = true ∧ s.buf.length < 9))

/-- R112, R113: the registers after a terminator do not depend on what the buffer decoded to: after an error they
are what they are after a Record. -/
def Obligations.ErrorsLeaveTheRegistersAsARecordDoes : Prop :=
  ∀ (s t t' : State) (b : Byte) (buf' : List Byte), isData b = false →
    feed b s = .next t → feed b { s with buf := buf' } = .next t' → t.st = t'.st ∧ t.buf = [] ∧ t'.buf = []

/-! ### Reset, the invariant, and what the host's other operations leave alone -/

/-- R29, R125 (the ports, the field output and the host's side are the model's, log entries 1, 3 and 4). -/
def Obligations.ResetStateIsFresh : Prop :=
  State.reset.st = .idle ∧ State.reset.buf = [] ∧ State.reset.out = .none ∧
    State.reset.reply = .noQuery ∧ State.reset.field = none ∧ State.reset.pending = []

/-- R15, R30: the reset state meets the invariant. -/
def Obligations.ResetMeetsTheInvariant : Prop := State.reset.Inv

/-- R15, R30, R53: from every state with at most 9 bytes in the buffer, no terminator among them, and none in
AfterCr, every step gives such a state. -/
def Obligations.EveryStepKeepsTheInvariant : Prop :=
  ∀ s t : State, s.Inv → step s = .next t → t.Inv

/-- R79, R100, R118: from every such state, the length a LengthError carries is 0 to 8 or 10. -/
def Obligations.EveryStepKeepsLengthErrorsInRange : Prop :=
  ∀ s t : State, s.Inv → step s = .next t → t.OutcomeInRange

/-- R126, R127 (decision D12): a reset sets the two registers and produces no outcome, whatever the buffer held. -/
def Obligations.HostResetClearsTheRegisters : Prop :=
  ∀ (s : State) (rest : List HostOp), s.pending = .reset :: rest →
    step s = .next { s with st := .idle, buf := [], out := .none, reply := .noQuery, field := none, pending := rest }

/-- R124, R134 (that the model steps at all is log entry 1): with nothing presented the registers hold and no
outcome is produced. -/
def Obligations.NothingPresentedHoldsTheRegisters : Prop :=
  ∀ s : State, s.pending = [] →
    step s = .next { s with out := .none, reply := .noQuery, field := none }

/-- R72, R93: an operation that is neither a fed byte nor a reset changes neither `st` nor `buf` and produces no outcome,
and a field row changes nothing but the field output. (That the outcome port is empty after a transaction that is no
step is log entry 4; the field output is the model's own, log entry 3.) -/
def Obligations.QueriesAndFieldBytesLeaveTheFramerAlone : Prop :=
  (∀ (s t : State) (op : HostOp) (rest : List HostOp), s.pending = op :: rest → op ≠ .reset →
    (∀ b, op ≠ .feed b) → step s = .next t → t.st = s.st ∧ t.buf = s.buf ∧ t.out = .none) ∧
  ∀ (s : State) (i : Instr), i.slot ≠ .stream → ∃ v, exec i s = .next { s with field := v }

/-! ### Streams of bytes -/

/-- R133 (decision D1), R28: the outcomes of a stream, and the registers after it, depend on `st` and `buf` alone:
on nothing the ports or the host's side hold. -/
def Obligations.StreamsDependOnTheRegistersAlone : Prop :=
  ∀ (bs : List Byte) (s s' : State), s.st = s'.st → s.buf = s'.buf →
    (feedAll bs s).2 = (feedAll bs s').2 ∧ (feedAll bs s).1.st = (feedAll bs s').1.st ∧
      (feedAll bs s).1.buf = (feedAll bs s').1.buf

/-- R104, R109: `feed_all` is the machine's run: presenting a stream and stepping once per byte goes through its
outcomes in their order and ends in its registers, with nothing left to present. -/
def Obligations.RunOfAStreamIsFeedAll : Prop :=
  ∀ (bs : List Byte) (s : State), s.pending = [] →
    outcomesOfRun bs.length (s.presentStream bs) = (feedAll bs s).2 ∧
    ∃ t, Host.Core.run Sys2Proof.core bs.length (s.presentStream bs) = .next t ∧
      t.st = (feedAll bs s).1.st ∧ t.buf = (feedAll bs s).1.buf ∧ t.pending = []

/-- R105: any partition of a stream into chunks gives the outcomes and the final state of the stream in one call. That the
final state is the same is the spec's own inference from R104, and the model's statement holds from every state, not
only from a fresh one. -/
def Obligations.ChunksDoNotMatter : Prop :=
  ∀ (chunks : List (List Byte)) (s : State), feedChunks chunks s = feedAll chunks.flatten s

/-- R107: from every state, a terminator, nine data bytes of a valid frame and a terminator give that frame's
Record at the second terminator and nothing between. -/
def Obligations.TerminatorResynchronises : Prop :=
  ∀ (s : State) (t1 t2 : Byte) (frame : List Byte) (r : Record),
    isData t1 = false → isData t2 = false → frame.length = 9 → (∀ b ∈ frame, isData b = true) →
    decodeFrame Config.funcTable frame = .ok r →
    ∃ s1, feed t1 s = .next s1 ∧ (feedAll (frame ++ [t2]) s1).2 = [.ok r] ∧
      (feedAll (frame ++ [t2]) s1).1.buf = []

/-- R108: CRLF, CR and LF give one and the same outcome for a payload, and leave the states R108 names. -/
def Obligations.TerminatorsAreEquivalent : Prop :=
  ∀ (s : State) (payload : List Byte), s.st = .idle → s.buf = [] → payload.length = 9 →
    (∀ b ∈ payload, isData b = true) →
    let o := outcomeOf (decodeFrame Config.funcTable payload)
    feedAll (payload ++ [CR, LF]) s = ({ s with st := .idle, buf := [], out := .none }, [o]) ∧
    feedAll (payload ++ [CR]) s = ({ s with st := .afterCr, buf := [], out := o }, [o]) ∧
    feedAll (payload ++ [LF]) s = ({ s with st := .idle, buf := [], out := o }, [o])

/-- R110: a run of m data bytes from an empty buffer in Idle, and a terminator, give m - 9 overflow errors (none
when m is at most 9) and then the decode of the last 9 bytes (of all of them when m is at most 9). -/
def Obligations.LongRunsSlideTheWindow : Prop :=
  ∀ (s : State) (xs : List Byte) (t : Byte), s.st = .idle → s.buf = [] → (∀ b ∈ xs, isData b = true) →
    isData t = false →
    (feedAll (xs ++ [t]) s).2 =
      List.replicate (xs.length - 9) (.err (.lengthError 10)) ++
        [outcomeOf (decodeFrame Config.funcTable (xs.drop (xs.length - 9)))]

/-- R15, R30, R118 over whole runs: whatever the host presents and however many steps are taken from reset. -/
def Obligations.ReachableStatesAreWellFormed : Prop :=
  ∀ s : State, Reachable s → s.Inv ∧ s.OutcomeInRange

/-- R23: of the two named predicates of the sign, each holds iff the sign is its own, so exactly one does; they do
so of the sign a status byte gives by its bit 2 (R70). -/
def Obligations.SignPredicatesNameTheSign : Prop :=
  ∀ (s : StatusFlags) (b : Byte),
    (isNegative s = true ↔ s.sign = .negative) ∧ (isPositive s = true ↔ s.sign = .positive) ∧
    isPositive s = !isNegative s ∧ isNegative (decodeStatus b) = b.getLsbD 2

/-- R58, R84 (packing: decision D3, log entry 14; ASCII: log entry 16): a found reading on the resolve port is valid, its
text is the bytes of the formatted digits, its length field is their number, 1 to 5, and every byte is an ASCII digit or
the point; an absent one is all zeros. -/
def Obligations.ResolvePortShowsTheReading : Prop :=
  ∀ (p : Placement) (u : UnitDescriptor) (d : DigitGroup),
    let w := packReply (.found p ⟨formatDigits p d, u⟩)
    w.resValid = true ∧ w.placement.toNat = fractionDigits p ∧ w.scale.toNat = scaleCode u.scale ∧
    w.base.toNat = baseCode u.base ∧ w.text.map BitVec.toNat = (formatDigits p d).map Char.toNat ∧
    w.textLen.toNat = w.text.length ∧ 1 ≤ w.text.length ∧ w.text.length ≤ 5 ∧
    (∀ b ∈ w.text, (0x30 ≤ b.toNat ∧ b.toNat ≤ 0x39) ∨ b = 0x2E#8) ∧
    packReply .absent = ⟨false, 0#2, 0#3, 0#3, 0#3, []⟩

/-- R72, R65: no step shows the field output, and none reads it: a field decoder has no effect but inside the frame
decoder, and holds no state between steps (the field is the model's own, log entry 3). -/
def Obligations.StepsNeverShowTheFieldOutput : Prop :=
  (∀ s t : State, step s = .next t → t.field = none) ∧
  ∀ (s : State) (v : Option FieldValue), step { s with field := v } = step s

/-- R55, R20, R21, R81 (the codes: decisions D3 and D19, log entry 14): the code of every enumeration value, in the
order the rules list them. -/
def Obligations.EnumerationCodesAreTheListedOnes : Prop :=
  [RangeCode.range0, .range1, .range2, .range3, .range4, .range5, .range6].map rangeIndex = List.range 7 ∧
  [FunctionCode.voltage, .microAmpere, .milliAmpere, .autoAmpere, .manualAmpere, .ohm, .continuity, .diode,
    .frequency, .capacitor, .temperature, .adp0, .adp1, .adp2, .adp3].map functionIndex = List.range 15 ∧
  [Placement.zero, .minus1, .minus2, .minus3].map fractionDigits = List.range 4 ∧
  [MetricScale.mega, .kilo, .noScale, .milli, .micro, .nano].map scaleCode = List.range 6 ∧
  [BaseUnit.ampere, .volt, .ohm, .hertz, .farad].map baseCode = List.range 5 ∧
  [TempUnit.fahrenheit, .celsius].map tempCode = List.range 2 ∧
  [Sign.positive, .negative].map signCode = List.range 2
end

