-- ==== Sys2Proof/Laws/Codec.lean ====
section
/-! SUPPORT. The small lemmas of the byte decoders and of the frame decoder. -/

namespace Sys2Proof

@[simp] theorem classify_cr : classify CR = .feedCr := rfl

@[simp] theorem classify_lf : classify LF = .feedLf := rfl

theorem isData_iff (b : Byte) : isData b = true ↔ b ≠ CR ∧ b ≠ LF := by
  simp [isData]

theorem terminator_iff (b : Byte) : isData b = false ↔ b = CR ∨ b = LF := by
  cases h : isData b
  · simp only [isData, Bool.and_eq_false_iff, bne_eq_false_iff_eq] at h
    simpa using h
  · have := (isData_iff b).1 h
    simp [this.1, this.2]

@[simp] theorem classify_data {b : Byte} (h : isData b = true) : classify b = .feedData b := by
  obtain ⟨h1, h2⟩ := (isData_iff b).1 h
  simp [classify, h1, h2]

@[simp] theorem decode_stream (b : Byte) : decode .stream b = .ok (classify b) := rfl

/-- R66 and R67.2 together: the decoder is the table, since a legal table has the four fixed entries. -/
theorem decodeFunction_entry (T : FuncTable) (b : Byte) :
    decodeFunction T b = match T.entry b with
      | some f => .ok f
      | none => .error (.invalidFunction b) := by
  have h : ∀ n : Nat, n < 256 → b.toNat = n → b = BitVec.ofNat 8 n := fun n _ hb => by
    rw [← hb]; simp
  unfold decodeFunction
  split
  · rename_i hb; rw [h _ (by decide) hb, T.ohm]
  · rename_i hb; rw [h _ (by decide) hb, T.manualAmpere]
  · rename_i hb; rw [h _ (by decide) hb, T.voltage]
  · rename_i hb; rw [h _ (by decide) hb, T.adp0]
  · rfl

/-- R48: a byte outside 0x30..0x3F is in no function table. -/
theorem FuncTable.entry_outside (T : FuncTable) {b : Byte} (h : inFunctionWindow b = false) :
    T.entry b = none := by
  obtain ⟨_, _, hm⟩ := T.fifteen
  exact (hm b).2 (.inl h)

namespace Machine

/-- A 9-byte sequence goes to the field decoders. -/
@[simp] theorem decodeFrame_nine (T : FuncTable) (b0 b1 b2 b3 b4 b5 b6 b7 b8 : Byte) :
    decodeFrame T [b0, b1, b2, b3, b4, b5, b6, b7, b8] = decodeFields T b0 b1 b2 b3 b4 b5 b6 b8 := rfl

@[simp] theorem decodeFrame_nil (T : FuncTable) : decodeFrame T [] = .error (.lengthError 0) := rfl

/-- R106: a boundary's outcome is never silent. -/
@[simp] theorem outcomeOf_ne_none (x : Except FrameError Record) : outcomeOf x ≠ .none := by
  cases x <;> simp [outcomeOf]

/-- What the field decoders say, once: each succeeded, or the first that failed gives the error (R75, R76). -/
theorem decodeFields_ok {T : FuncTable} {b0 b1 b2 b3 b4 b5 b6 b8 : Byte} {r : Record}
    (h : decodeFields T b0 b1 b2 b3 b4 b5 b6 b8 = .ok r) :
    decodeRange b0 = .ok r.range ∧ decodeDigit b1 = .ok r.digits.d0 ∧ decodeDigit b2 = .ok r.digits.d1 ∧
      decodeDigit b3 = .ok r.digits.d2 ∧ decodeDigit b4 = .ok r.digits.d3 ∧
      decodeFunction T b5 = .ok r.function ∧ decodeStatus b6 = r.status ∧ decodeOption b8 = r.option := by
  unfold decodeFields at h
  repeat' split at h
  all_goals cases h
  exact ⟨‹_›, ‹_›, ‹_›, ‹_›, ‹_›, ‹_›, rfl, rfl⟩

/-- The field decoders never give a `LengthError`: only the length does (R74, R75). -/
theorem decodeFields_not_length (T : FuncTable) (b0 b1 b2 b3 b4 b5 b6 b8 : Byte) (n : Nat) :
    decodeFields T b0 b1 b2 b3 b4 b5 b6 b8 ≠ .error (.lengthError n) := by
  have hr : ∀ b n, decodeRange b ≠ .error (.lengthError n) := fun b n => by
    unfold decodeRange; split <;> simp
  have hd : ∀ b n, decodeDigit b ≠ .error (.lengthError n) := fun b n => by
    unfold decodeDigit; split <;> simp
  have hf : ∀ b n, decodeFunction T b ≠ .error (.lengthError n) := fun b n => by
    unfold decodeFunction; repeat' split
    all_goals simp
  intro h
  unfold decodeFields at h
  repeat' split at h
  all_goals cases h
  all_goals first
    | exact hr _ _ ‹_›
    | exact hd _ _ ‹_›
    | exact hf _ _ ‹_›

end Machine

end Sys2Proof
end

