-- ==== Sys2Proof/Laws/State.lean ====
section
/-! SUPPORT. One lemma per field per update of the state, so that no later proof unfolds a record update. -/

namespace Sys2Proof.Machine

@[simp] theorem State.append_st (b : Byte) (s : State) : (s.append b).st = s.st := rfl
@[simp] theorem State.append_buf (b : Byte) (s : State) : (s.append b).buf = s.buf ++ [b] := rfl
@[simp] theorem State.append_out (b : Byte) (s : State) : (s.append b).out = s.out := rfl
@[simp] theorem State.append_reply (b : Byte) (s : State) : (s.append b).reply = s.reply := rfl
@[simp] theorem State.append_field (b : Byte) (s : State) : (s.append b).field = s.field := rfl
@[simp] theorem State.append_pending (b : Byte) (s : State) : (s.append b).pending = s.pending := rfl

@[simp] theorem State.trim_st (s : State) : (s.trim).st = s.st := rfl
@[simp] theorem State.trim_buf (s : State) : (s.trim).buf = s.buf.drop (s.buf.length - FRAME_LEN) := rfl
@[simp] theorem State.trim_out (s : State) : (s.trim).out = s.out := rfl
@[simp] theorem State.trim_reply (s : State) : (s.trim).reply = s.reply := rfl
@[simp] theorem State.trim_field (s : State) : (s.trim).field = s.field := rfl
@[simp] theorem State.trim_pending (s : State) : (s.trim).pending = s.pending := rfl

@[simp] theorem State.clear_st (s : State) : (s.clear).st = s.st := rfl
@[simp] theorem State.clear_buf (s : State) : (s.clear).buf = [] := rfl
@[simp] theorem State.clear_out (s : State) : (s.clear).out = s.out := rfl
@[simp] theorem State.clear_reply (s : State) : (s.clear).reply = s.reply := rfl
@[simp] theorem State.clear_field (s : State) : (s.clear).field = s.field := rfl
@[simp] theorem State.clear_pending (s : State) : (s.clear).pending = s.pending := rfl

@[simp] theorem State.goto_st (x : FramerState) (s : State) : (s.goto x).st = x := rfl
@[simp] theorem State.goto_buf (x : FramerState) (s : State) : (s.goto x).buf = s.buf := rfl
@[simp] theorem State.goto_out (x : FramerState) (s : State) : (s.goto x).out = s.out := rfl
@[simp] theorem State.goto_reply (x : FramerState) (s : State) : (s.goto x).reply = s.reply := rfl
@[simp] theorem State.goto_field (x : FramerState) (s : State) : (s.goto x).field = s.field := rfl
@[simp] theorem State.goto_pending (x : FramerState) (s : State) : (s.goto x).pending = s.pending := rfl

@[simp] theorem State.emit_st (o : StepOutcome) (s : State) : (s.emit o).st = s.st := rfl
@[simp] theorem State.emit_buf (o : StepOutcome) (s : State) : (s.emit o).buf = s.buf := rfl
@[simp] theorem State.emit_out (o : StepOutcome) (s : State) : (s.emit o).out = o := rfl
@[simp] theorem State.emit_reply (o : StepOutcome) (s : State) : (s.emit o).reply = s.reply := rfl
@[simp] theorem State.emit_field (o : StepOutcome) (s : State) : (s.emit o).field = s.field := rfl
@[simp] theorem State.emit_pending (o : StepOutcome) (s : State) : (s.emit o).pending = s.pending := rfl

@[simp] theorem State.driveField_st (v : Option FieldValue) (s : State) : (s.driveField v).st = s.st := rfl
@[simp] theorem State.driveField_buf (v : Option FieldValue) (s : State) : (s.driveField v).buf = s.buf := rfl
@[simp] theorem State.driveField_out (v : Option FieldValue) (s : State) : (s.driveField v).out = s.out := rfl
@[simp] theorem State.driveField_reply (v : Option FieldValue) (s : State) : (s.driveField v).reply = s.reply := rfl
@[simp] theorem State.driveField_field (v : Option FieldValue) (s : State) : (s.driveField v).field = v := rfl
@[simp] theorem State.driveField_pending (v : Option FieldValue) (s : State) : (s.driveField v).pending = s.pending := rfl

@[simp] theorem State.answer_st (r : ResolverReply) (s : State) : (s.answer r).st = s.st := rfl
@[simp] theorem State.answer_buf (r : ResolverReply) (s : State) : (s.answer r).buf = s.buf := rfl
@[simp] theorem State.answer_out (r : ResolverReply) (s : State) : (s.answer r).out = s.out := rfl
@[simp] theorem State.answer_reply (r : ResolverReply) (s : State) : (s.answer r).reply = r := rfl
@[simp] theorem State.answer_field (r : ResolverReply) (s : State) : (s.answer r).field = s.field := rfl
@[simp] theorem State.answer_pending (r : ResolverReply) (s : State) : (s.answer r).pending = s.pending := rfl

@[simp] theorem State.resetBlock_st (s : State) : (s.resetBlock).st = .idle := rfl
@[simp] theorem State.resetBlock_buf (s : State) : (s.resetBlock).buf = [] := rfl
@[simp] theorem State.resetBlock_out (s : State) : (s.resetBlock).out = .none := rfl
@[simp] theorem State.resetBlock_reply (s : State) : (s.resetBlock).reply = s.reply := rfl
@[simp] theorem State.resetBlock_field (s : State) : (s.resetBlock).field = s.field := rfl
@[simp] theorem State.resetBlock_pending (s : State) : (s.resetBlock).pending = s.pending := rfl

@[simp] theorem State.quiet_st (s : State) : (s.quiet).st = s.st := rfl
@[simp] theorem State.quiet_buf (s : State) : (s.quiet).buf = s.buf := rfl
@[simp] theorem State.quiet_out (s : State) : (s.quiet).out = .none := rfl
@[simp] theorem State.quiet_reply (s : State) : (s.quiet).reply = .noQuery := rfl
@[simp] theorem State.quiet_field (s : State) : (s.quiet).field = none := rfl
@[simp] theorem State.quiet_pending (s : State) : (s.quiet).pending = s.pending := rfl

@[simp] theorem State.withPending_st (ops : List HostOp) (s : State) : (s.withPending ops).st = s.st := rfl
@[simp] theorem State.withPending_buf (ops : List HostOp) (s : State) : (s.withPending ops).buf = s.buf := rfl
@[simp] theorem State.withPending_out (ops : List HostOp) (s : State) : (s.withPending ops).out = s.out := rfl
@[simp] theorem State.withPending_reply (ops : List HostOp) (s : State) : (s.withPending ops).reply = s.reply := rfl
@[simp] theorem State.withPending_field (ops : List HostOp) (s : State) : (s.withPending ops).field = s.field := rfl
@[simp] theorem State.withPending_pending (ops : List HostOp) (s : State) : (s.withPending ops).pending = ops := rfl

end Sys2Proof.Machine
end

