-- ==== Sys2Proof/Laws/Framer.lean ====
section
/-! SUPPORT. What the shared operations of the framer can do, said once: a boundary, an accumulation, one feed. -/

namespace Sys2Proof.Machine

/-- A boundary, as one record update. -/
theorem boundary_eq (x : FramerState) (s : State) :
    boundary x s = { s with out := outcomeOf (decodeFrame Config.funcTable s.buf), buf := [], st := x } := rfl

/-- R98: with room in the buffer the byte is appended and there is no outcome. -/
theorem accumulate_room {b : Byte} {s : State} (h : s.buf.length < 9) :
    accumulate b s = { s with out := .none, buf := s.buf ++ [b] } := by
  have hn : ¬ FRAME_LEN < (s.append b).buf.length := by simp [FRAME_LEN]; omega
  simp only [accumulate, if_neg hn]
  rfl

/-- R99 as written, for a buffer of any length from 9: trim to the last 9 and report the length before the trim. -/
theorem accumulate_over {b : Byte} {s : State} (h : 9 ≤ s.buf.length) :
    accumulate b s = { s with out := .err (.lengthError (s.buf.length + 1)),
                              buf := (s.buf ++ [b]).drop (s.buf.length + 1 - 9) } := by
  have hn : FRAME_LEN < (s.append b).buf.length := by simp [FRAME_LEN]; omega
  have hl : (s.append b).buf.length = s.buf.length + 1 := by simp
  simp only [accumulate, if_pos hn]
  simp only [hl]
  simp [State.trim, State.emit, State.append, FRAME_LEN]

/-- R99, R100: with 9 bytes in the buffer the oldest is dropped and the error carries 10. -/
theorem accumulate_full {b : Byte} {s : State} (h : s.buf.length = 9) :
    accumulate b s = { s with out := .err (.lengthError 10), buf := s.buf.tail ++ [b] } := by
  have hd : (s.buf ++ [b]).drop 1 = s.buf.tail ++ [b] := by
    cases hb : s.buf with
    | nil => simp [hb] at h
    | cons a l => simp
  rw [accumulate_over (by omega)]
  simp [h, hd]

/-- Every operation of the framer keeps the buffer's canonical form (R15, R30): a boundary. -/
theorem boundary_keeps_inv (x : FramerState) (s : State) : (boundary x s).Inv := by
  simp [boundary_eq, State.Inv]

/-- An accumulation in `Idle` keeps the canonical form. -/
theorem accumulate_keeps_inv {b : Byte} {s : State} (hi : s.Inv) (hs : s.st = .idle) (hb : isData b = true) :
    (accumulate b s).Inv := by
  obtain ⟨hl, hd, -⟩ := hi
  by_cases h : s.buf.length < 9
  · rw [accumulate_room h]
    refine ⟨by simp [FRAME_LEN]; omega, ?_, by simp [hs]⟩
    intro c hc
    simp only [List.mem_append, List.mem_singleton] at hc
    exact hc.elim (hd c) (fun e => e ▸ hb)
  · have h9 : s.buf.length = 9 := by simp only [FRAME_LEN] at hl; omega
    rw [accumulate_full h9]
    refine ⟨by simp [FRAME_LEN, h9], ?_, by simp [hs]⟩
    intro c hc
    simp only [List.mem_append, List.mem_singleton] at hc
    exact hc.elim (fun m => hd c (List.mem_of_mem_tail m)) (fun e => e ▸ hb)

/-- Feeding a CR is a boundary in both states (R96, R102). -/
@[simp] theorem feed_cr (s : State) : feed CR s = .next (boundary .afterCr s) := by
  rcases hs : s.st <;> simp [feed, exec, execFeedCr, hs]

/-- Feeding an LF in `Idle` is a boundary (R97). -/
theorem feed_lf_idle {s : State} (h : s.st = .idle) : feed LF s = .next (boundary .idle s) := by
  simp [feed, exec, execFeedLf, h]

/-- Feeding an LF in `AfterCr` swallows it (R101). -/
theorem feed_lf_afterCr {s : State} (h : s.st = .afterCr) :
    feed LF s = .next { s with out := .none, buf := [], st := .idle } := by
  simp [feed, exec, execFeedLf, h, State.clear, State.goto, State.emit]

/-- Feeding a data byte in `Idle` accumulates it (R98, R99). -/
theorem feed_data_idle {b : Byte} {s : State} (hb : isData b = true) (h : s.st = .idle) :
    feed b s = .next (accumulate b s) := by
  simp [feed, hb, exec, execFeedData, h]

/-- Feeding a data byte in `AfterCr` starts a new frame (R103). -/
theorem feed_data_afterCr {b : Byte} {s : State} (hb : isData b = true) (h : s.st = .afterCr) :
    feed b s = .next { s with out := .none, buf := s.buf ++ [b], st := .idle } := by
  simp [feed, hb, exec, execFeedData, h, State.append, State.goto, State.emit]

/-- All that one feed can do: one arm of the table of R95. -/
theorem feed_cases {b : Byte} {s t : State} (h : feed b s = .next t) :
    (b = CR ∧ t = boundary .afterCr s) ∨
    (b = LF ∧ s.st = .idle ∧ t = boundary .idle s) ∨
    (b = LF ∧ s.st = .afterCr ∧ t = { s with out := .none, buf := [], st := .idle }) ∨
    (isData b = true ∧ s.st = .idle ∧ t = accumulate b s) ∨
    (isData b = true ∧ s.st = .afterCr ∧ t = { s with out := .none, buf := s.buf ++ [b], st := .idle }) := by
  cases hb : isData b
  · rcases (terminator_iff b).1 hb with rfl | rfl
    · rw [feed_cr] at h; cases h; exact .inl ⟨rfl, rfl⟩
    · rcases hs : s.st
      · rw [feed_lf_idle hs] at h; cases h; exact .inr (.inl ⟨rfl, rfl, rfl⟩)
      · rw [feed_lf_afterCr hs] at h; cases h; exact .inr (.inr (.inl ⟨rfl, rfl, rfl⟩))
  · rcases hs : s.st
    · rw [feed_data_idle hb hs] at h; cases h; exact .inr (.inr (.inr (.inl ⟨rfl, rfl, rfl⟩)))
    · rw [feed_data_afterCr hb hs] at h; cases h; exact .inr (.inr (.inr (.inr ⟨rfl, rfl, rfl⟩)))

/-- `feed_all` unfolds one byte at a time. -/
theorem feedAll_cons {b : Byte} {bs : List Byte} {s t : State} (h : feed b s = .next t) :
    feedAll (b :: bs) s =
      ((feedAll bs t).1, if t.out = .none then (feedAll bs t).2 else t.out :: (feedAll bs t).2) := by
  simp [feedAll, h]

end Sys2Proof.Machine
end

