-- ==== Sys2Proof/Laws/PerInstr.lean ====
section
/-! SUPPORT. A family of statements, one per constructor of `Instr`: the instruction is read in one format only, the
one its row of the opcode table names. -/

namespace Sys2Proof.Laws

/-- Whatever legal function table the block has, a byte decodes to an instruction only in the instruction's own
format. -/
theorem decodeIn_slot {T : FuncTable} {slot : Slot} {b : Byte} {i : Instr} (h : decodeIn T slot b = .ok i) :
    i.slot = slot := by
  have key : ∀ {α : Type} {x : Except FrameError α} {g : α → Instr} {j : Instr},
      x.map g = .ok j → ∃ a, g a = j := by
    intro α x g j hx
    cases x with
    | error e => cases hx
    | ok a => exact ⟨a, by simpa [Except.map] using hx⟩
  cases slot with
  | stream =>
    simp only [decodeIn, Except.ok.injEq, classify] at h
    subst h
    repeat' split
    all_goals rfl
  | range => obtain ⟨r, rfl⟩ := key h; cases r <;> rfl
  | digit => obtain ⟨d, rfl⟩ := key h; unfold digitInstr; repeat' split
             all_goals rfl
  | function => obtain ⟨f, rfl⟩ := key h; cases f <;> rfl
  | status => cases h; rfl
  | unused => cases h; rfl
  | option => cases h; rfl

namespace DecodesOnlyInItsSlot

/-- The instruction is read in one format only. -/
def Statement (i : Instr) : Prop :=
  ∀ (T : FuncTable) (slot : Slot) (b : Byte), decodeIn T slot b = .ok i → slot = i.slot

theorem feedCr : Statement .feedCr := fun _ _ _ h => (decodeIn_slot h).symm

theorem feedLf : Statement .feedLf := fun _ _ _ h => (decodeIn_slot h).symm

theorem feedData (x : Byte) : Statement (.feedData x) := fun _ _ _ h => (decodeIn_slot h).symm

theorem range0 : Statement .range0 := fun _ _ _ h => (decodeIn_slot h).symm

theorem range1 : Statement .range1 := fun _ _ _ h => (decodeIn_slot h).symm

theorem range2 : Statement .range2 := fun _ _ _ h => (decodeIn_slot h).symm

theorem range3 : Statement .range3 := fun _ _ _ h => (decodeIn_slot h).symm

theorem range4 : Statement .range4 := fun _ _ _ h => (decodeIn_slot h).symm

theorem range5 : Statement .range5 := fun _ _ _ h => (decodeIn_slot h).symm

theorem range6 : Statement .range6 := fun _ _ _ h => (decodeIn_slot h).symm

theorem digit0 : Statement .digit0 := fun _ _ _ h => (decodeIn_slot h).symm

theorem digit1 : Statement .digit1 := fun _ _ _ h => (decodeIn_slot h).symm

theorem digit2 : Statement .digit2 := fun _ _ _ h => (decodeIn_slot h).symm

theorem digit3 : Statement .digit3 := fun _ _ _ h => (decodeIn_slot h).symm

theorem digit4 : Statement .digit4 := fun _ _ _ h => (decodeIn_slot h).symm

theorem digit5 : Statement .digit5 := fun _ _ _ h => (decodeIn_slot h).symm

theorem digit6 : Statement .digit6 := fun _ _ _ h => (decodeIn_slot h).symm

theorem digit7 : Statement .digit7 := fun _ _ _ h => (decodeIn_slot h).symm

theorem digit8 : Statement .digit8 := fun _ _ _ h => (decodeIn_slot h).symm

theorem digit9 : Statement .digit9 := fun _ _ _ h => (decodeIn_slot h).symm

theorem fnAutoAmpere : Statement .fnAutoAmpere := fun _ _ _ h => (decodeIn_slot h).symm

theorem fnDiode : Statement .fnDiode := fun _ _ _ h => (decodeIn_slot h).symm

theorem fnFrequency : Statement .fnFrequency := fun _ _ _ h => (decodeIn_slot h).symm

theorem fnOhm : Statement .fnOhm := fun _ _ _ h => (decodeIn_slot h).symm

theorem fnTemperature : Statement .fnTemperature := fun _ _ _ h => (decodeIn_slot h).symm

theorem fnContinuity : Statement .fnContinuity := fun _ _ _ h => (decodeIn_slot h).symm

theorem fnCapacitor : Statement .fnCapacitor := fun _ _ _ h => (decodeIn_slot h).symm

theorem fnAdp2 : Statement .fnAdp2 := fun _ _ _ h => (decodeIn_slot h).symm

theorem fnManualAmpere : Statement .fnManualAmpere := fun _ _ _ h => (decodeIn_slot h).symm

theorem fnAdp3 : Statement .fnAdp3 := fun _ _ _ h => (decodeIn_slot h).symm

theorem fnVoltage : Statement .fnVoltage := fun _ _ _ h => (decodeIn_slot h).symm

theorem fnAdp1 : Statement .fnAdp1 := fun _ _ _ h => (decodeIn_slot h).symm

theorem fnMicroAmpere : Statement .fnMicroAmpere := fun _ _ _ h => (decodeIn_slot h).symm

theorem fnAdp0 : Statement .fnAdp0 := fun _ _ _ h => (decodeIn_slot h).symm

theorem fnMilliAmpere : Statement .fnMilliAmpere := fun _ _ _ h => (decodeIn_slot h).symm

theorem status (x : Byte) : Statement (.status x) := fun _ _ _ h => (decodeIn_slot h).symm

theorem unusedByte7 (x : Byte) : Statement (.unusedByte7 x) := fun _ _ _ h => (decodeIn_slot h).symm

theorem option (x : Byte) : Statement (.option x) := fun _ _ _ h => (decodeIn_slot h).symm

end DecodesOnlyInItsSlot

end Sys2Proof.Laws
end

