-- ==== Sys2Proof/Laws/Resolver.lean ====
section
/-! SUPPORT. What a resolve query can do, said once, and the numberings of the enumerations. -/

namespace Sys2Proof.Machine

@[simp] theorem rangeOfIndex_rangeIndex (r : RangeCode) : rangeOfIndex (rangeIndex r) = some r := by
  cases r <;> rfl

@[simp] theorem functionOfIndex_functionIndex (f : FunctionCode) : functionOfIndex (functionIndex f) = some f := by
  cases f <;> rfl

@[simp] theorem digitOfNibble_val (d : Digit) : digitOfNibble d.val = some d := by
  simp [digitOfNibble, d.isLt]

theorem rangeIndex_lt (r : RangeCode) : rangeIndex r < 7 := by cases r <;> decide

theorem functionIndex_lt (f : FunctionCode) : functionIndex f < 15 := by cases f <;> decide

/-- If a query answers a next state, only the resolve port changed (R93). -/
theorem queryCodes_next {range : BitVec 3} {function : BitVec 4} {digits : BitVec 16} {s t : State}
    (h : queryCodes range function digits s = .next t) : ∃ reply, t = s.answer reply := by
  unfold queryCodes at h
  repeat' split at h
  all_goals first | (cases h; exact ⟨_, rfl⟩) | cases h

/-- The same of a query with a packed Record. -/
theorem queryPacked_next {payload : BitVec 30} {s t : State} (h : queryPacked payload s = .next t) :
    ∃ reply, t = s.answer reply := queryCodes_next h

end Sys2Proof.Machine
end

