-- ==== Sys2Proof/Laws/Step.lean ====
section
/-! SUPPORT. What one step can do, said once. -/

namespace Sys2Proof.Machine

/-- The state a step begins its operation in. -/
@[simp] theorem step_nil {s : State} (h : s.pending = []) : step s = .next s.quiet := by
  simp [step, h]

/-- A step with an operation presented takes it. -/
theorem step_cons {s : State} {op : HostOp} {rest : List HostOp} (h : s.pending = op :: rest) :
    step s = runOp op (s.quiet.withPending rest) := by
  simp [step, h]

/-- Feeding a byte writes no field output: the field rows are evaluated inside the frame decoder (R72). -/
theorem feed_field {b : Byte} {s t : State} (h : feed b s = .next t) : t.field = s.field := by
  have ha : (accumulate b s).field = s.field := by simp only [accumulate]; split <;> rfl
  rcases feed_cases h with ⟨-, rfl⟩ | ⟨-, -, rfl⟩ | ⟨-, -, rfl⟩ | ⟨-, -, rfl⟩ | ⟨-, -, rfl⟩ <;> first | rfl | exact ha

/-- All that one step can do: hold with empty ports, feed a byte, reset, or answer a query. -/
theorem step_cases {s t : State} (h : step s = .next t) :
    (s.pending = [] ∧ t = s.quiet) ∨
    ∃ op rest, s.pending = op :: rest ∧
      ((∃ b, op = .feed b ∧ feed b (s.quiet.withPending rest) = .next t) ∨
       (op = .reset ∧ t = (s.quiet.withPending rest).resetBlock) ∨
       ((∀ b, op ≠ .feed b) ∧ op ≠ .reset ∧ ∃ r, t = (s.quiet.withPending rest).answer r)) := by
  cases hp : s.pending with
  | nil => rw [step_nil hp] at h; cases h; exact .inl ⟨rfl, rfl⟩
  | cons op rest =>
    rw [step_cons hp] at h
    refine .inr ⟨op, rest, rfl, ?_⟩
    cases op with
    | feed b => exact .inl ⟨b, rfl, h⟩
    | reset => cases h; exact .inr (.inl ⟨rfl, rfl⟩)
    | query r f d => exact .inr (.inr ⟨by simp, by simp, queryCodes_next h⟩)
    | queryRecord w => exact .inr (.inr ⟨by simp, by simp, queryPacked_next h⟩)

end Sys2Proof.Machine
end

