-- ==== Sys2Proof/Tests/Slice0.lean ====
section
/-! SUPPORT. The model's own tests. Every expected result is the spec's: the vectors of 95_test_vectors.md (named in
each comment), the encodings of 30_encoding.md, or a rule's own corner case. The witnesses at the end show that the
hypotheses of the statements can be met. -/

open Sys2Proof Sys2Proof.Machine

namespace Sys2Proof.Tests

/-- A state of the framer with nothing on the ports and nothing presented. -/
def framer (st : FramerState) (cs : List Char) : State := { State.reset with st := st, buf := streamBytes cs }

/-- The reset state with one operation presented. -/
def presenting (op : HostOp) : State := { State.reset with pending := [op] }

/-! ### Well-formedness -/

/-- R44: CR and LF are no data bytes. -/
theorem test_wf_refuses_terminators : (Instr.feedData 0x0D#8).wf = false ∧ (Instr.feedData 0x0A#8).wf = false := by
  decide

/-- R44, D16: 0x00, the bytes next to the terminators and 0xFF are data bytes. -/
theorem test_wf_accepts_data :
    (Instr.feedData 0x00#8).wf = true ∧ (Instr.feedData 0x0B#8).wf = true ∧ (Instr.feedData 0x0C#8).wf = true
      ∧ (Instr.feedData 0x0E#8).wf = true ∧ (Instr.feedData 0xFF#8).wf = true := by decide

/-! ### Decoding: a byte written out for every row -/

/-- R44. -/
theorem test_decode_stream_rows (T : FuncTable) :
    decodeIn T .stream 0b00001101#8 = .ok .feedCr ∧ decodeIn T .stream 0b00001010#8 = .ok .feedLf ∧
    decodeIn T .stream 0b00000000#8 = .ok (.feedData 0x00#8) ∧
    decodeIn T .stream 0b10001101#8 = .ok (.feedData 0x8D#8) := ⟨rfl, rfl, rfl, rfl⟩

/-- R47. -/
theorem test_decode_range_rows (T : FuncTable) :
    decodeIn T .range 0b00110000#8 = .ok .range0 ∧ decodeIn T .range 0b00110001#8 = .ok .range1 ∧
    decodeIn T .range 0b00110010#8 = .ok .range2 ∧ decodeIn T .range 0b00110011#8 = .ok .range3 ∧
    decodeIn T .range 0b00110100#8 = .ok .range4 ∧ decodeIn T .range 0b00110101#8 = .ok .range5 ∧
    decodeIn T .range 0b00110110#8 = .ok .range6 := ⟨rfl, rfl, rfl, rfl, rfl, rfl, rfl⟩

/-- R49. -/
theorem test_decode_digit_rows (T : FuncTable) :
    decodeIn T .digit 0b00110000#8 = .ok .digit0 ∧ decodeIn T .digit 0b00110001#8 = .ok .digit1 ∧
    decodeIn T .digit 0b00110010#8 = .ok .digit2 ∧ decodeIn T .digit 0b00110011#8 = .ok .digit3 ∧
    decodeIn T .digit 0b00110100#8 = .ok .digit4 ∧ decodeIn T .digit 0b00110101#8 = .ok .digit5 ∧
    decodeIn T .digit 0b00110110#8 = .ok .digit6 ∧ decodeIn T .digit 0b00110111#8 = .ok .digit7 ∧
    decodeIn T .digit 0b00111000#8 = .ok .digit8 ∧ decodeIn T .digit 0b00111001#8 = .ok .digit9 :=
  ⟨rfl, rfl, rfl, rfl, rfl, rfl, rfl, rfl, rfl, rfl⟩

/-- R48: the four bytes the spec fixes, under any legal table. -/
theorem test_decode_fixed_function_rows (T : FuncTable) :
    decodeIn T .function 0b00110011#8 = .ok .fnOhm ∧ decodeIn T .function 0b00111001#8 = .ok .fnManualAmpere ∧
    decodeIn T .function 0b00111011#8 = .ok .fnVoltage ∧ decodeIn T .function 0b00111110#8 = .ok .fnAdp0 :=
  ⟨rfl, rfl, rfl, rfl⟩

/-- I-G1, [param]: the other eleven rows under the candidate table (the bytes of spec/opcode_table.json). -/
theorem test_decode_candidate_function_rows :
    let T := Config.candidateFuncTable
    decodeIn T .function 0b00110000#8 = .ok .fnAutoAmpere ∧ decodeIn T .function 0b00110001#8 = .ok .fnDiode ∧
    decodeIn T .function 0b00110010#8 = .ok .fnFrequency ∧ decodeIn T .function 0b00110100#8 = .ok .fnTemperature ∧
    decodeIn T .function 0b00110101#8 = .ok .fnContinuity ∧ decodeIn T .function 0b00110110#8 = .ok .fnCapacitor ∧
    decodeIn T .function 0b00111000#8 = .ok .fnAdp2 ∧ decodeIn T .function 0b00111010#8 = .ok .fnAdp3 ∧
    decodeIn T .function 0b00111100#8 = .ok .fnAdp1 ∧ decodeIn T .function 0b00111101#8 = .ok .fnMicroAmpere ∧
    decodeIn T .function 0b00111111#8 = .ok .fnMilliAmpere :=
  ⟨rfl, rfl, rfl, rfl, rfl, rfl, rfl, rfl, rfl, rfl, rfl⟩

/-- R50, R51, R52: the rows every byte belongs to. -/
theorem test_decode_flag_rows (T : FuncTable) :
    decodeIn T .status 0b00111100#8 = .ok (.status 0x3C#8) ∧
    decodeIn T .unused 0b01011000#8 = .ok (.unusedByte7 0x58#8) ∧
    decodeIn T .option 0b00111010#8 = .ok (.option 0x3A#8) := ⟨rfl, rfl, rfl⟩

/-- The bytes of the candidate's rows are their encodings, as the table lists them. -/
theorem test_encode_candidate_function_rows :
    let T := Config.candidateFuncTable
    encodeIn T .fnAutoAmpere = 0x30#8 ∧ encodeIn T .fnDiode = 0x31#8 ∧ encodeIn T .fnAdp3 = 0x3A#8 ∧
    encodeIn T .fnMilliAmpere = 0x3F#8 ∧ encodeIn T .fnVoltage = 0x3B#8 := by decide

/-- The fixed name the host asks with: the stream's reading of a byte (log entry 2). -/
theorem test_decodeTableWord :
    decodeTableWord 8 0x0D = some .feedCr ∧ decodeTableWord 8 0x0A = some .feedLf ∧
    decodeTableWord 8 0x30 = some (.feedData 0x30#8) ∧ decodeTableWord 8 0x00 = some (.feedData 0x00#8) := by decide

/-! ### Field decoders (vectors F1 to F28) -/

/-- F1 to F6. -/
theorem test_range_vectors :
    decodeRange 0x30#8 = .ok .range0 ∧ decodeRange 0x36#8 = .ok .range6 ∧
    decodeRange 0x2F#8 = .error (.invalidRange 0x2F#8) ∧ decodeRange 0x37#8 = .error (.invalidRange 0x37#8) ∧
    decodeRange 0xB0#8 = .error (.invalidRange 0xB0#8) ∧ decodeRange 0x00#8 = .error (.invalidRange 0x00#8) :=
  ⟨rfl, rfl, rfl, rfl, rfl, rfl⟩

/-- F7 to F11. -/
theorem test_digit_vectors :
    decodeDigit 0x30#8 = .ok 0 ∧ decodeDigit 0x39#8 = .ok 9 ∧ decodeDigit 0x2F#8 = .error (.invalidDigit 0x2F#8) ∧
    decodeDigit 0x3A#8 = .error (.invalidDigit 0x3A#8) ∧ decodeDigit 0x20#8 = .error (.invalidDigit 0x20#8) :=
  ⟨rfl, rfl, rfl, rfl, rfl⟩

/-- F16 to F18: bytes outside the window are invalid whatever the table is. -/
theorem test_function_outside_window (T : FuncTable) :
    decodeFunction T 0x2F#8 = .error (.invalidFunction 0x2F#8) ∧
    decodeFunction T 0x40#8 = .error (.invalidFunction 0x40#8) ∧
    decodeFunction T 0xBB#8 = .error (.invalidFunction 0xBB#8) := by
  simp [decodeFunction_entry, T.entry_outside (b := 0x2F#8) (by decide), T.entry_outside (b := 0x40#8) (by decide),
    T.entry_outside (b := 0xBB#8) (by decide)]

/-- F19, [param]: the byte the candidate leaves out. -/
theorem test_function_candidate_gap :
    decodeFunction Config.candidateFuncTable 0x37#8 = .error (.invalidFunction 0x37#8) := rfl

/-- F20 to F24. -/
theorem test_status_vectors :
    decodeStatus 0x00#8 = ⟨.fahrenheit, .positive, false, false⟩ ∧
    decodeStatus 0x0F#8 = ⟨.celsius, .negative, true, true⟩ ∧
    decodeStatus 0xF0#8 = ⟨.fahrenheit, .positive, false, false⟩ ∧
    decodeStatus 0x02#8 = ⟨.fahrenheit, .positive, true, false⟩ ∧
    decodeStatus 0x3C#8 = ⟨.celsius, .negative, false, false⟩ := by decide

/-- F25 to F28, and scenario 2's option byte. -/
theorem test_option_vectors :
    decodeOption 0x0E#8 = ⟨true, true, true⟩ ∧ decodeOption 0x01#8 = ⟨false, false, false⟩ ∧
    decodeOption 0xFF#8 = ⟨true, true, true⟩ ∧ decodeOption 0x30#8 = ⟨false, false, false⟩ ∧
    decodeOption 0x36#8 = ⟨false, true, true⟩ := by decide

/-- F24 by its row, and F11 and F17: the error of a byte that is in no row of its format (R65). -/
theorem test_field_rows (T : FuncTable) :
    exec (.status 0x3C#8) State.reset =
      .next { State.reset with field := some (.status ⟨.celsius, .negative, false, false⟩) } ∧
    fieldOf T State.reset .digit 0x20#8 = some (.rejected (.invalidDigit 0x20#8)) ∧
    fieldOf T State.reset .range 0x41#8 = some (.rejected (.invalidRange 0x41#8)) := ⟨rfl, rfl, rfl⟩

/-! ### The frame decoder (scenarios and vectors FD1 to FD18) -/

/-- FD1, FD2, FD3, FD4: the length comes first. -/
theorem test_frame_length_vectors (T : FuncTable) :
    decodeFrame T [] = .error (.lengthError 0) ∧
    decodeFrame T (streamBytes ['0', '0', '0', '0', ';', '<', '0', ':']) = .error (.lengthError 8) ∧
    decodeFrame T (streamBytes ['0', '0', '0', '0', '0', ';', '<', '0', ':', '0']) = .error (.lengthError 10) ∧
    decodeFrame T (streamBytes ['A', '0', '0', '0']) = .error (.lengthError 4) := ⟨rfl, rfl, rfl, rfl⟩

/-- FD5 to FD8: the order of the fields. -/
theorem test_frame_error_order (T : FuncTable) :
    decodeFrame T (streamBytes ['A', '0', '0', '0', '0', ';', '<', '0', ':']) = .error (.invalidRange 0x41#8) ∧
    decodeFrame T (streamBytes ['0', 'A', '0', '0', '0', ';', '<', '0', ':']) = .error (.invalidDigit 0x41#8) ∧
    decodeFrame T (streamBytes ['A', '0', '0', '0', 'X', ';', '<', '0', ':']) = .error (.invalidRange 0x41#8) ∧
    decodeFrame T (streamBytes ['0', '0', 'A', '0', 'B', ';', '<', '0', ':']) = .error (.invalidDigit 0x41#8) :=
  ⟨rfl, rfl, rfl, rfl⟩

/-- FD10, FD13, FD17. -/
theorem test_frame_corner_vectors (T : FuncTable) :
    decodeFrame T (streamBytes ['0', '0', '0', 'X', '0', '@', '<', '0', ':']) = .error (.invalidDigit 0x58#8) ∧
    decodeFrame T (streamBytes ['6', '0', '0', '0', '0', ';', '<', '0', ':']) =
      .ok ⟨.range6, ⟨0, 0, 0, 0⟩, .voltage, ⟨.celsius, .negative, false, false⟩, ⟨true, false, true⟩⟩ ∧
    decodeFrame T [0x00#8, 0x30#8, 0x30#8, 0x30#8, 0x30#8, 0x3B#8, 0x3C#8, 0x30#8, 0x3A#8] =
      .error (.invalidRange 0x00#8) := ⟨rfl, rfl, rfl⟩

/-- FD11, FD12: byte 7 is ignored, and any status and option byte is taken. -/
theorem test_frame_any_flag_bytes (T : FuncTable) :
    decodeFrame T (streamBytes ['0', '0', '0', '0', '0', ';', '<', 'X', ':']) =
      .ok ⟨.range0, ⟨0, 0, 0, 0⟩, .voltage, ⟨.celsius, .negative, false, false⟩, ⟨true, false, true⟩⟩ ∧
    decodeFrame T [0x30#8, 0x30#8, 0x30#8, 0x30#8, 0x30#8, 0x3B#8, 0xFF#8, 0x30#8, 0x00#8] =
      .ok ⟨.range0, ⟨0, 0, 0, 0⟩, .voltage, ⟨.celsius, .negative, true, true⟩, ⟨false, false, false⟩⟩ := ⟨rfl, rfl⟩

/-- S2, S3, S4, S5: the source's scenarios, with the fields 95_test_vectors.md derives. -/
theorem test_frame_scenarios (T : FuncTable) :
    decodeFrame T (streamBytes ['2', '0', '9', '8', '9', ';', '8', '0', '6']) =
      .ok ⟨.range2, ⟨0, 9, 8, 9⟩, .voltage, ⟨.celsius, .positive, false, false⟩, ⟨false, true, true⟩⟩ ∧
    decodeFrame T (streamBytes ['5', '6', '0', '0', '0', '3', '9', '0', '2']) =
      .ok ⟨.range5, ⟨6, 0, 0, 0⟩, .ohm, ⟨.celsius, .positive, false, true⟩, ⟨false, false, true⟩⟩ ∧
    decodeFrame T (streamBytes ['0', '0', '1', '3', '6', '>', '8', '0', '0']) =
      .ok ⟨.range0, ⟨0, 1, 3, 6⟩, .adp0, ⟨.celsius, .positive, false, false⟩, ⟨false, false, false⟩⟩ ∧
    decodeFrame T (streamBytes ['0', '0', '0', '0', '1', '9', '8', '0', '8']) =
      .ok ⟨.range0, ⟨0, 0, 0, 1⟩, .manualAmpere, ⟨.celsius, .positive, false, false⟩, ⟨true, false, false⟩⟩ :=
  ⟨rfl, rfl, rfl, rfl⟩

/-! ### The formatter and the resolver (vectors S7, V1 to V18) -/

/-- S7, V1, V2, V4 to V8, V10, and scenarios 2 and 4. -/
theorem test_format_vectors :
    formatDigits .minus3 ⟨0, 0, 2, 2⟩ = ['0', '.', '0', '2', '2'] ∧ formatDigits .zero ⟨0, 0, 0, 0⟩ = ['0'] ∧
    formatDigits .zero ⟨9, 9, 9, 9⟩ = ['9', '9', '9', '9'] ∧ formatDigits .minus1 ⟨0, 0, 0, 0⟩ = ['0', '.', '0'] ∧
    formatDigits .minus1 ⟨0, 0, 0, 5⟩ = ['0', '.', '5'] ∧
    formatDigits .minus1 ⟨6, 0, 0, 0⟩ = ['6', '0', '0', '.', '0'] ∧
    formatDigits .minus2 ⟨0, 0, 0, 0⟩ = ['0', '.', '0', '0'] ∧
    formatDigits .minus2 ⟨0, 0, 1, 2⟩ = ['0', '.', '1', '2'] ∧
    formatDigits .minus3 ⟨9, 9, 9, 9⟩ = ['9', '.', '9', '9', '9'] ∧
    formatDigits .minus1 ⟨0, 9, 8, 9⟩ = ['9', '8', '.', '9'] ∧
    formatDigits .zero ⟨0, 1, 3, 6⟩ = ['1', '3', '6'] := by decide

/-- V11, V14, V15, V16, V17 and scenario 3, whatever the open entries of the unit table are. -/
theorem test_resolve_vectors :
    resolve .range3 .microAmpere ⟨1, 2, 3, 4⟩ = none ∧
    resolve .range0 .voltage ⟨5, 9, 9, 9⟩ = some ⟨['5', '.', '9', '9', '9'], .noScale, .volt⟩ ∧
    resolve .range2 .voltage ⟨0, 0, 0, 0⟩ = some ⟨['0', '.', '0'], .noScale, .volt⟩ ∧
    resolve .range5 .ohm ⟨0, 0, 0, 1⟩ = some ⟨['0', '.', '0', '1'], .mega, .ohm⟩ ∧
    resolve .range0 .manualAmpere ⟨1, 2, 3, 4⟩ = some ⟨['1', '.', '2', '3', '4'], .noScale, .ampere⟩ ∧
    resolve .range5 .ohm ⟨6, 0, 0, 0⟩ = some ⟨['6', '0', '.', '0', '0'], .mega, .ohm⟩ := ⟨rfl, rfl, rfl, rfl, rfl, rfl⟩

/-- I-G2 agrees with the entries R88 and R89 fix, as the spec says it does. -/
theorem test_candidate_unit_table : FixedUnitEntries Config.candidateUnitTable := by
  refine ⟨rfl, rfl, rfl, rfl, rfl, ?_⟩
  intro r f hf
  simp only [List.mem_cons, List.not_mem_nil, or_false] at hf
  rcases hf with rfl | rfl | rfl | rfl | rfl | rfl | rfl <;> cases r <;> rfl

/-- V18 by a packed query, and a range code of 7, which is refused (R94). -/
theorem test_step_queries :
    step (presenting (.query 0#3 0#4 0#16)) =
      .next { State.reset with reply := .found .minus3 ⟨['0', '.', '0', '0', '0'], .noScale, .volt⟩ } ∧
    step (presenting (.query 7#3 0#4 0#16)) = .refused (.rangeCodeOutOfType 7#3) := ⟨rfl, rfl⟩

/-- R56: scenario 1's Record, its fields at the bits the table names (sign 24, temp_unit 23, dc 27, auto 29). -/
theorem test_pack_record :
    packRecord ⟨.range0, ⟨0, 0, 0, 0⟩, .voltage, ⟨.celsius, .negative, false, false⟩, ⟨true, false, true⟩⟩ =
      0b101001100000000000000000000000#30 ∧
    packRecord ⟨.range2, ⟨0, 9, 8, 9⟩, .ohm, ⟨.fahrenheit, .positive, false, false⟩, ⟨false, false, false⟩⟩ =
      0b000000001010000100110001001010#30 := by decide

/-- R57, R59: the error word of `InvalidRange(0x41)` and of `LengthError(10)`. -/
theorem test_pack_outcome :
    packOutcome (.err (.invalidRange 0x41#8)) = ⟨true, true, 0b0100000101#30⟩ ∧
    packOutcome (.err (.lengthError 10)) = ⟨true, true, 0b0000101000#30⟩ ∧
    packOutcome .none = ⟨false, false, 0#30⟩ := by decide

/-! ### The framer, one step each -/

/-- S1: the CR at the end of scenario 1's payload. -/
theorem test_step_cr_scenario_one :
    exec .feedCr (framer .idle ['0', '0', '0', '0', '0', ';', '<', '0', ':']) =
      .next { State.reset with
        st := .afterCr
        out := .ok ⟨.range0, ⟨0, 0, 0, 0⟩, .voltage, ⟨.celsius, .negative, false, false⟩, ⟨true, false, true⟩⟩ } := rfl

/-- T2, T3, T18: a CR on an empty buffer in both states, and on four bytes. -/
theorem test_step_cr_lengths :
    step (presenting (.feed 0x0D#8)) =
      .next { State.reset with st := .afterCr, out := .err (.lengthError 0) } ∧
    exec .feedCr (framer .afterCr []) = .next { State.reset with st := .afterCr, out := .err (.lengthError 0) } ∧
    exec .feedCr (framer .idle ['0', '0', '0', '0']) =
      .next { State.reset with st := .afterCr, out := .err (.lengthError 4) } := ⟨rfl, rfl, rfl⟩

/-- T1, T16: an LF in `Idle` is a boundary, in `AfterCr` it is swallowed. -/
theorem test_step_lf :
    exec .feedLf (framer .idle []) = .next { State.reset with out := .err (.lengthError 0) } ∧
    exec .feedLf (framer .afterCr []) = .next State.reset := ⟨rfl, rfl⟩

/-- R98's example and T15. -/
theorem test_step_data_accumulates :
    exec (.feedData 0x3A#8) (framer .idle ['0', '0', '0', '0', '0', ';', '<', '0']) =
      .next (framer .idle ['0', '0', '0', '0', '0', ';', '<', '0', ':']) ∧
    exec (.feedData 0x30#8) (framer .afterCr []) = .next (framer .idle ['0']) := ⟨rfl, rfl⟩

/-- R99's example. -/
theorem test_step_data_slides :
    exec (.feedData 0x3A#8) (framer .idle ['X', '0', '0', '0', '0', '0', ';', '<', '0']) =
      .next { framer .idle ['0', '0', '0', '0', '0', ';', '<', '0', ':'] with out := .err (.lengthError 10) } := rfl

/-- T19: a reset drops what the buffer held and gives no outcome. -/
theorem test_step_reset :
    step { framer .afterCr ['0', '0'] with pending := [.reset] } = .next State.reset := rfl

/-- A byte placed where the next step takes it from. -/
theorem test_step_placed_byte :
    step (State.reset.withFetchWord 8 0x39) = .next (framer .idle ['9']) := rfl

/-! ### Witnesses: the hypotheses of the statements can be met -/

theorem witness_EncodedInstructionDecodesToItself :
    (Instr.feedData 0x0B#8).wf = true ∧ (Instr.feedData 0xFF#8).wf = true ∧ Instr.fnDiode.wf = true := by decide

theorem witness_DecodedByteIsItsEncoding :
    decodeIn Config.candidateFuncTable .range 0x36#8 = .ok .range6 := rfl

theorem witness_StepRunsTheDecodedInstruction :
    (presenting (.feed 0x0D#8)).pending = .feed 0x0D#8 :: [] ∧
      decode .stream 0x0D#8 = .ok .feedCr ∧ Instr.feedCr.wf = true := ⟨rfl, rfl, rfl⟩

/-- At the first byte of the frame, at its last digit, and at its function byte (0x40 is in no function table). -/
theorem witness_RejectedFieldByteGivesItsError :
    let s (cs : List Char) : State := { framer .idle cs with pending := [.feed 0x0D#8] }
    let range := s ['7', '0', '0', '0', '0', ';', '<', '0', ':']
    let digit := s ['0', '0', '0', '0', ':', '@', '<', '0', ':']
    let function := s ['0', '0', '0', '0', '0', '@', '<', '0', ':']
    isData 0x0D#8 = false ∧
    (range.st = .idle ∧ range.buf.length = 9 ∧ frameLayout[0]? = some .range ∧ range.buf[0]? = some 0x37#8 ∧
      decode .range 0x37#8 = .error (.invalidRange 0x37#8)) ∧
    (digit.st = .idle ∧ digit.buf.length = 9 ∧ frameLayout[4]? = some .digit ∧ digit.buf[4]? = some 0x3A#8 ∧
      decode .digit 0x3A#8 = .error (.invalidDigit 0x3A#8) ∧
      ∀ j slot b, j < 4 → frameLayout[j]? = some slot → digit.buf[j]? = some b → ∃ k, decode slot b = .ok k) ∧
    (function.st = .idle ∧ function.buf.length = 9 ∧ frameLayout[5]? = some .function ∧
      function.buf[5]? = some 0x40#8 ∧ decode .function 0x40#8 = .error (.invalidFunction 0x40#8) ∧
      ∀ j slot b, j < 5 → frameLayout[j]? = some slot → function.buf[j]? = some b → ∃ k, decode slot b = .ok k) := by
  refine ⟨rfl, ⟨rfl, rfl, rfl, rfl, rfl⟩, ⟨rfl, rfl, rfl, rfl, rfl, ?_⟩, ⟨rfl, rfl, rfl, rfl, ?_, ?_⟩⟩
  · intro j slot b hj hs hb
    rcases (by omega : j = 0 ∨ j = 1 ∨ j = 2 ∨ j = 3) with rfl | rfl | rfl | rfl <;> cases hs <;> cases hb <;>
      exact ⟨_, rfl⟩
  · simp [decode, decodeIn, decodeFunction_entry, Except.map,
      Config.funcTable.entry_outside (b := 0x40#8) (by decide)]
  · intro j slot b hj hs hb
    rcases (by omega : j = 0 ∨ j = 1 ∨ j = 2 ∨ j = 3 ∨ j = 4) with rfl | rfl | rfl | rfl | rfl <;> cases hs <;>
      cases hb <;> exact ⟨_, rfl⟩

theorem witness_PlacedByteRunsNext : 0 < 256 ∧ 255 < 256 := by decide

/-- Both clauses at their ends: 0x30 and 0x36, 0x2F and 0x37. -/
theorem witness_RangeDecoderIsExact :
    (0x30 ≤ (0x30#8).toNat ∧ (0x30#8).toNat ≤ 0x36) ∧ (0x30 ≤ (0x36#8).toNat ∧ (0x36#8).toNat ≤ 0x36) ∧
      (0x2F#8).toNat < 0x30 ∧ 0x36 < (0x37#8).toNat := by decide

/-- Both clauses at their ends: 0x30 and 0x39, 0x2F and 0x3A. -/
theorem witness_DigitDecoderIsExact :
    (0x30 ≤ (0x30#8).toNat ∧ (0x30#8).toNat ≤ 0x39) ∧ (0x30 ≤ (0x39#8).toNat ∧ (0x39#8).toNat ≤ 0x39) ∧
      (0x2F#8).toNat < 0x30 ∧ 0x39 < (0x3A#8).toNat := by decide

theorem witness_FunctionDecoderFollowsTheTable :
    (0x2F#8).toNat < 0x30 ∧ 0x3F < (0x40#8).toNat ∧ Config.candidateFuncTable.entry 0x37#8 = none := by decide

theorem witness_StatusFlagsAreTheLowBits : (0xFF#8).toNat % 16 = (0x0F#8).toNat % 16 := by decide

theorem witness_OptionFlagsAreTheirBits : (0xFE#8).toNat % 16 / 2 = (0x0F#8).toNat % 16 / 2 := by decide

/-- The lengths on both sides of 9, and 0. -/
theorem witness_WrongLengthIsALengthError :
    ([] : List Byte).length ≠ 9 ∧ (List.replicate 8 0x30#8).length ≠ 9 ∧ (List.replicate 10 0x30#8).length ≠ 9 := by
  decide

theorem witness_FrameDecoderRunsTheFieldRows :
    (streamBytes ['0', '0', '0', '0', '0', ';', '<', '0', ':']).length = 9 := by decide

theorem witness_UnitTableCoversEveryLegalTable : FixedUnitEntries Config.candidateUnitTable :=
  test_candidate_unit_table

theorem witness_ResolveFollowsTheUnitTable :
    unitTableOf Config.unitTableParam .range3 .microAmpere = none ∧
      unitTableOf Config.unitTableParam .range5 .ohm = some (.minus2, ⟨.mega, .ohm⟩) := ⟨rfl, rfl⟩

theorem witness_ResolveQueryIsAnswered :
    (presenting (.query 6#3 14#4 0x9999#16)).pending =
      .query (BitVec.ofNat 3 (rangeIndex .range6)) (BitVec.ofNat 4 (functionIndex .adp3))
        (digitsWord ⟨9, 9, 9, 9⟩) :: [] := by decide

theorem witness_PackedQueryReadsNoFlag :
    let r : Record := ⟨.range5, ⟨6, 0, 0, 0⟩, .ohm, ⟨.celsius, .positive, false, true⟩, ⟨false, false, true⟩⟩
    (presenting (.queryRecord (packRecord r))).pending = .queryRecord (packRecord r) :: [] := rfl

/-- Both clauses at their ends: the largest codes within the types, and each code just outside its type. -/
theorem witness_OnlyOutOfTypeQueriesAreRefused :
    (HostOp.query 6#3 14#4 0x9999#16).inType = true ∧ (HostOp.query 7#3 14#4 0x9999#16).inType = false ∧
      (HostOp.query 6#3 15#4 0x9999#16).inType = false ∧ (HostOp.query 6#3 14#4 0x999A#16).inType = false := by
  decide

/-- The lengths at both ends of R118's range, and an outcome that carries none. -/
theorem witness_OutcomeWordsAreOneToOne :
    lengthInRange 0 ∧ lengthInRange 8 ∧ lengthInRange 10 ∧
      ∀ n, StepOutcome.none = .err (.lengthError n) → lengthInRange n := by
  refine ⟨by decide, by decide, by decide, ?_⟩
  intro n h
  cases h

/-- The invariant at both ends: an empty buffer in `AfterCr` and a full one in `Idle`. -/
theorem witness_BufferRegistersShowTheBuffer :
    (framer .afterCr []).Inv ∧ (framer .idle ['0', '0', '0', '0', '0', ';', '<', '0', ':']).Inv := by decide

theorem witness_CrInIdleIsABoundary : (framer .idle ['0']).st = .idle := rfl

theorem witness_LfInIdleIsABoundary : (framer .idle []).st = .idle := rfl

/-- At both ends of the range: an empty buffer and one of 8 bytes. -/
theorem witness_DataInIdleAccumulates :
    (framer .idle []).st = .idle ∧ (framer .idle []).buf.length < 9 ∧
      (framer .idle ['0', '0', '0', '0', '0', ';', '<', '0']).buf.length < 9 ∧ isData 0x00#8 = true := by decide

theorem witness_DataOnFullBufferSlides :
    (framer .idle ['0', '0', '0', '0', '0', ';', '<', '0', ':']).st = .idle ∧
      (framer .idle ['0', '0', '0', '0', '0', ';', '<', '0', ':']).buf.length = 9 ∧ isData 0x30#8 = true := by decide

theorem witness_LfAfterCrIsSwallowed : (framer .afterCr []).st = .afterCr := rfl

theorem witness_CrAfterCrIsAnEmptyBoundary :
    (framer .afterCr []).st = .afterCr ∧ (framer .afterCr []).buf = [] := ⟨rfl, rfl⟩

theorem witness_DataAfterCrStartsAFrame :
    (framer .afterCr []).st = .afterCr ∧ (framer .afterCr []).buf = [] ∧ isData 0x30#8 = true := ⟨rfl, rfl, rfl⟩

theorem witness_OutcomeIsSilentOnlyWhereTheRulesSay :
    (framer .afterCr []).Inv ∧ feed 0x0A#8 (framer .afterCr []) = .next State.reset ∧
      (framer .idle []).Inv ∧ feed 0x30#8 (framer .idle []) = .next (framer .idle ['0']) :=
  ⟨by decide, rfl, by decide, rfl⟩

theorem witness_ErrorsLeaveTheRegistersAsARecordDoes :
    isData 0x0A#8 = false ∧
      feed 0x0A#8 (framer .idle []) = .next { State.reset with out := .err (.lengthError 0) } ∧
      feed 0x0A#8 { framer .idle [] with buf := [0x30#8] } = .next { State.reset with out := .err (.lengthError 1) } :=
  ⟨by decide, rfl, rfl⟩

theorem witness_EveryStepKeepsTheInvariant :
    (presenting (.feed 0x39#8)).Inv ∧
      step (presenting (.feed 0x39#8)) = .next (framer .idle ['9']) := ⟨by decide, rfl⟩

theorem witness_EveryStepKeepsLengthErrorsInRange :
    (presenting (.feed 0x0D#8)).Inv ∧ step (presenting (.feed 0x0D#8)) =
      .next { State.reset with st := .afterCr, out := .err (.lengthError 0) } := ⟨by decide, rfl⟩

theorem witness_HostResetClearsTheRegisters : (presenting .reset).pending = .reset :: [] := rfl

theorem witness_NothingPresentedHoldsTheRegisters : (framer .idle ['0']).pending = [] := rfl

theorem witness_QueriesAndFieldBytesLeaveTheFramerAlone :
    let op := HostOp.query 3#3 1#4 0#16
    (presenting op).pending = op :: [] ∧ op ≠ .reset ∧ (∀ b, op ≠ .feed b) ∧
      step (presenting op) = .next { State.reset with reply := .absent } ∧ Instr.digit0.slot ≠ .stream := by
  refine ⟨rfl, by decide, ?_, rfl, by decide⟩
  intro b h
  cases h

theorem witness_StreamsDependOnTheRegistersAlone :
    (framer .idle ['0']).st = { framer .idle ['0'] with pending := [.reset] }.st ∧
      (framer .idle ['0']).buf = { framer .idle ['0'] with pending := [.reset] }.buf := ⟨rfl, rfl⟩

theorem witness_RunOfAStreamIsFeedAll : State.reset.pending = [] := rfl

theorem witness_TerminatorResynchronises :
    let frame := streamBytes ['0', '0', '0', '0', '0', ';', '<', '0', ':']
    isData 0x0D#8 = false ∧ isData 0x0A#8 = false ∧ frame.length = 9 ∧ (∀ b ∈ frame, isData b = true) ∧
      decodeFrame Config.funcTable frame =
        .ok ⟨.range0, ⟨0, 0, 0, 0⟩, .voltage, ⟨.celsius, .negative, false, false⟩, ⟨true, false, true⟩⟩ :=
  ⟨by decide, by decide, by decide, by decide, rfl⟩

theorem witness_TerminatorsAreEquivalent :
    let payload := streamBytes ['0', '0', '0', '0', '1', '9', '8', '0', '8']
    State.reset.st = .idle ∧ State.reset.buf = [] ∧ payload.length = 9 ∧ (∀ b ∈ payload, isData b = true) := by decide

/-- Runs of 9 and of 10 data bytes, on both sides of the first overflow. -/
theorem witness_LongRunsSlideTheWindow :
    State.reset.st = .idle ∧ State.reset.buf = [] ∧ isData 0x0D#8 = false ∧
      (∀ b ∈ List.replicate 9 0x30#8, isData b = true) ∧ (∀ b ∈ List.replicate 10 0x30#8, isData b = true) := by decide

theorem witness_ReachableStatesAreWellFormed : Reachable (framer .idle ['9']) :=
  .step (presenting (.feed 0x39#8)) _ (.present State.reset [.feed 0x39#8] .reset) rfl

theorem witness_StepsNeverShowTheFieldOutput :
    step { presenting (.feed 0x39#8) with field := some (.digit 0) } = .next (framer .idle ['9']) := rfl

end Sys2Proof.Tests
end

section
/-! PROOFS. The framer's `FEED_DATA` as an instruction of its own (spec R103). -/

namespace Sys2Proof.Machine

/-- R44, R62: the framer reads a byte that is no terminator as `FEED_DATA`, so feeding it is running that row. -/
theorem feed_eq_exec_feedData {b : Byte} (hb : isData b = true) (s : State) :
    feed b s = exec (.feedData b) s := by
  rw [feed, classify_data hb]

/-- Settles O40: in `AfterCr` the fed byte is appended with no overflow check (R103), and there the buffer is empty
(R30), so what it then holds is that byte alone. -/
theorem dataAfterCrStartsAFrame : Obligations.DataAfterCrStartsAFrame := by
  intro s b hst hbuf hb
  calc exec (.feedData b) s
      = feed b s := (feed_eq_exec_feedData hb s).symm
    _ = .next { s with out := .none, buf := s.buf ++ [b], st := .idle } := feed_data_afterCr hb hst
    _ = .next { s with out := .none, buf := [b], st := .idle } := by rw [hbuf, List.nil_append]

end Sys2Proof.Machine
end

section
/-! PROOFS. What the decoder of a format answers, from what the decoder of its field does (spec R44, R47 to R52). -/

namespace Sys2Proof

section
variable (T : FuncTable)

/-- R44: no byte of the stream is rejected. -/
@[simp] theorem decodeIn_stream (b : Byte) : decodeIn T .stream b = .ok (classify b) := rfl

/-- R50: every byte is a status byte. -/
@[simp] theorem decodeIn_status (b : Byte) : decodeIn T .status b = .ok (.status b) := rfl

/-- R52: every byte may stand at offset 7. -/
@[simp] theorem decodeIn_unused (b : Byte) : decodeIn T .unused b = .ok (.unusedByte7 b) := rfl

/-- R51: every byte is an option byte. -/
@[simp] theorem decodeIn_option (b : Byte) : decodeIn T .option b = .ok (.option b) := rfl

theorem decodeIn_range_of_ok {b : Byte} {r : RangeCode} (h : decodeRange b = .ok r) :
    decodeIn T .range b = .ok (rangeInstr r) := by
  rw [decodeIn, h, Except.map]

theorem decodeIn_range_of_error {b : Byte} {e : FrameError} (h : decodeRange b = .error e) :
    decodeIn T .range b = .error e := by
  rw [decodeIn, h, Except.map]

theorem decodeIn_digit_of_ok {b : Byte} {d : Digit} (h : decodeDigit b = .ok d) :
    decodeIn T .digit b = .ok (digitInstr d) := by
  rw [decodeIn, h, Except.map]

theorem decodeIn_digit_of_error {b : Byte} {e : FrameError} (h : decodeDigit b = .error e) :
    decodeIn T .digit b = .error e := by
  rw [decodeIn, h, Except.map]

/-- R48: a function byte is the row of its entry in the table. -/
theorem decodeIn_function_of_entry {b : Byte} {f : FunctionCode} (h : T.entry b = some f) :
    decodeIn T .function b = .ok (functionInstr f) := by
  rw [decodeIn, decodeFunction_entry, h, Except.map]

end

/-- Settles O3: the stream bytes by their class (R44), the range and digit bytes by their field's mapping (R47, R49),
the function byte because every legal table has the entry of Voltage (R67.2), and the flag bytes because their formats
take every byte (R50 to R52). -/
theorem specBytesDecodeToTheirRows : Obligations.SpecBytesDecodeToTheirRows := by
  intro T
  have hdata : isData 0b00110000#8 = true := rfl
  have hrange : decodeRange 0b00110101#8 = .ok .range5 := rfl
  have hdigit : decodeDigit 0b00111001#8 = .ok 9 := rfl
  have hrangeBad : decodeRange 0b00110111#8 = .error (.invalidRange 0b00110111#8) := rfl
  have hdigitBad : decodeDigit 0b00111010#8 = .error (.invalidDigit 0b00111010#8) := rfl
  exact ⟨congrArg Except.ok classify_cr, congrArg Except.ok classify_lf, congrArg Except.ok (classify_data hdata),
    decodeIn_range_of_ok T hrange, decodeIn_digit_of_ok T hdigit, decodeIn_function_of_entry T T.voltage,
    decodeIn_status T _, decodeIn_unused T _, decodeIn_option T _,
    decodeIn_range_of_error T hrangeBad, decodeIn_digit_of_error T hdigitBad⟩

end Sys2Proof
end

section
/-! PROOFS. What the digit decoder and the function decoder answer on each byte (spec R66, R68). -/

namespace Sys2Proof

section
variable {T : FuncTable} {b : Byte}

/-- R66: a byte with an entry in the table gives that entry. -/
theorem decodeFunction_of_entry_some {f : FunctionCode} (h : T.entry b = some f) : decodeFunction T b = .ok f := by
  rw [decodeFunction_entry, h]

/-- R66: a byte without an entry in the table is rejected. -/
theorem decodeFunction_of_entry_none (h : T.entry b = none) :
    decodeFunction T b = .error (.invalidFunction b) := by
  rw [decodeFunction_entry, h]

theorem decodeFunction_eq_ok_iff (f : FunctionCode) : decodeFunction T b = .ok f ↔ T.entry b = some f := by
  cases h : T.entry b with
  | none => simp [decodeFunction_of_entry_none h]
  | some g => simp [decodeFunction_of_entry_some h]

theorem decodeFunction_eq_error_iff : decodeFunction T b = .error (.invalidFunction b) ↔ T.entry b = none := by
  cases h : T.entry b with
  | none => simp [decodeFunction_of_entry_none h]
  | some g => simp [decodeFunction_of_entry_some h]

theorem inFunctionWindow_eq_false (h : b.toNat < 0x30 ∨ 0x3F < b.toNat) : inFunctionWindow b = false := by
  simp only [inFunctionWindow, Bool.and_eq_false_iff, decide_eq_false_iff_not]
  omega

end

/-- Settles O10: the decoder is the table (R66), a legal table has the four fixed entries (R67.2), and it has no entry
outside the window 0x30..0x3F (R48). -/
theorem functionDecoderFollowsTheTable : Obligations.FunctionDecoderFollowsTheTable := by
  intro T b
  have houtside (h : b.toNat < 0x30 ∨ 0x3F < b.toNat) : decodeFunction T b = .error (.invalidFunction b) :=
    decodeFunction_of_entry_none (T.entry_outside (inFunctionWindow_eq_false h))
  exact ⟨decodeFunction_of_entry_some T.ohm, decodeFunction_of_entry_some T.manualAmpere,
    decodeFunction_of_entry_some T.voltage, decodeFunction_of_entry_some T.adp0,
    decodeFunction_eq_ok_iff, decodeFunction_eq_error_iff, houtside⟩

/-- R68: the ASCII byte of a digit gives that digit. -/
theorem decodeDigit_ascii : ∀ d : Digit, decodeDigit (BitVec.ofNat 8 (0x30 + d.val)) = .ok d := by
  decide

/-- R68: a byte that is 0x30 plus a digit gives that digit. -/
theorem decodeDigit_of_toNat {b : Byte} {d : Digit} (h : 0x30 + d.val = b.toNat) : decodeDigit b = .ok d := by
  have hb : BitVec.ofNat 8 (0x30 + d.val) = b := by rw [h, BitVec.ofNat_toNat, BitVec.setWidth_eq]
  rw [← hb, decodeDigit_ascii]

/-- R68: only the bytes from 0x30 to 0x39 are digits. -/
theorem decodeDigit_of_outside {b : Byte} (h : b.toNat < 0x30 ∨ 0x39 < b.toNat) :
    decodeDigit b = .error (.invalidDigit b) := by
  unfold decodeDigit
  split
  case h_11 => rfl
  all_goals omega

/-- Settles O9: a byte from 0x30 to 0x39 is 0x30 plus a digit, which is then its low four bits; every other byte is
outside the mapping. -/
theorem digitDecoderIsExact : Obligations.DigitDecoderIsExact := by
  intro b
  refine ⟨fun ⟨hlo, hhi⟩ => ?_, decodeDigit_of_outside⟩
  obtain ⟨d, hd⟩ : ∃ d : Digit, 0x30 + d.val = b.toNat :=
    ⟨⟨b.toNat - 0x30, by omega⟩, Nat.add_sub_cancel' hlo⟩
  exact ⟨d, decodeDigit_of_toNat hd, by omega, hd⟩

end Sys2Proof
end

section
/-! PROOFS. What the frame decoder answers on each byte sequence: the length check, the first failing field, the Record
(spec R74, R75, R76). -/

namespace Sys2Proof.Machine

/-- Settles O18: only the nine-byte sequences reach the field decoders. -/
theorem wrongLengthIsALengthError : Obligations.WrongLengthIsALengthError := by
  intro T bytes hlen
  unfold decodeFrame
  split
  case h_1 => exact absurd rfl hlen
  case h_2 => rfl

/-- R74: a sequence with a Record has passed the length check. -/
theorem length_of_decodeFrame_ok {T : FuncTable} {bytes : List Byte} {r : Record} (h : decodeFrame T bytes = .ok r) :
    bytes.length = 9 := by
  by_contra hlen
  rw [wrongLengthIsALengthError T bytes hlen] at h
  cases h

theorem exists_bytes_of_length_nine {bytes : List Byte} (h : bytes.length = 9) :
    ∃ b0 b1 b2 b3 b4 b5 b6 b7 b8, bytes = [b0, b1, b2, b3, b4, b5, b6, b7, b8] :=
  match bytes, h with
  | [_, _, _, _, _, _, _, _, _], _ => ⟨_, _, _, _, _, _, _, _, _, rfl⟩

/-- R75: the field decoders run in frame order, and the first error ends the run. -/
theorem decodeFields_eq_bind (T : FuncTable) (b0 b1 b2 b3 b4 b5 b6 b8 : Byte) :
    decodeFields T b0 b1 b2 b3 b4 b5 b6 b8 = do
      let range ← decodeRange b0
      let d0 ← decodeDigit b1
      let d1 ← decodeDigit b2
      let d2 ← decodeDigit b3
      let d3 ← decodeDigit b4
      let function ← decodeFunction T b5
      return { range, digits := ⟨d0, d1, d2, d3⟩, function,
               status := decodeStatus b6, option := decodeOption b8 } := by
  unfold decodeFields
  cases decodeRange b0 with
  | error e => rfl
  | ok range => cases decodeDigit b1 with
    | error e => rfl
    | ok d0 => cases decodeDigit b2 with
      | error e => rfl
      | ok d1 => cases decodeDigit b3 with
        | error e => rfl
        | ok d2 => cases decodeDigit b4 with
          | error e => rfl
          | ok d3 => cases decodeFunction T b5 with
            | error e => rfl
            | ok function => rfl

/-- The error of a run is that of its first decoder, or else the first of `later`, when `later` lists the errors of
the decoders behind it. -/
theorem errorOf_bind_eq_findSome? {α β : Type} {x : Except FrameError α} {run : α → Except FrameError β}
    {later : List (Option FrameError)} (hlater : ∀ a, errorOf (run a) = later.findSome? id) :
    errorOf (x >>= run) = (errorOf x :: later).findSome? id := by
  cases x with
  | error e => rfl
  | ok a => exact hlater a

/-- Settles O19: one field at a time, in the order of the run; the run ends in a Record, which has no error. -/
theorem firstFieldErrorIsReported : Obligations.FirstFieldErrorIsReported := by
  intro T b0 b1 b2 b3 b4 b5 b6 b7 b8
  rw [decodeFrame_nine, decodeFields_eq_bind]
  exact errorOf_bind_eq_findSome? fun range =>
    errorOf_bind_eq_findSome? fun d0 =>
    errorOf_bind_eq_findSome? fun d1 =>
    errorOf_bind_eq_findSome? fun d2 =>
    errorOf_bind_eq_findSome? fun d3 =>
    errorOf_bind_eq_findSome? fun function => rfl

/-- R76: the field decoders give the Record of the values they decode, and only that one. -/
theorem decodeFields_eq_ok_iff {T : FuncTable} {b0 b1 b2 b3 b4 b5 b6 b8 : Byte} {r : Record} :
    decodeFields T b0 b1 b2 b3 b4 b5 b6 b8 = .ok r ↔
      decodeRange b0 = .ok r.range ∧ decodeDigit b1 = .ok r.digits.d0 ∧ decodeDigit b2 = .ok r.digits.d1 ∧
        decodeDigit b3 = .ok r.digits.d2 ∧ decodeDigit b4 = .ok r.digits.d3 ∧
        decodeFunction T b5 = .ok r.function ∧ decodeStatus b6 = r.status ∧ decodeOption b8 = r.option := by
  refine ⟨decodeFields_ok, ?_⟩
  rintro ⟨hrange, hd0, hd1, hd2, hd3, hfunction, hstatus, hoption⟩
  rw [decodeFields_eq_bind, hrange, hd0, hd1, hd2, hd3, hfunction, hstatus, hoption]
  rfl

/-- Settles O20: the length check leaves nine bytes, and on these the field decoders are exact. -/
theorem recordFieldsAreDecodedBytes : Obligations.RecordFieldsAreDecodedBytes := by
  intro T bytes r
  constructor
  · intro h
    obtain ⟨b0, b1, b2, b3, b4, b5, b6, b7, b8, rfl⟩ := exists_bytes_of_length_nine (length_of_decodeFrame_ok h)
    rw [decodeFrame_nine] at h
    exact ⟨b0, b1, b2, b3, b4, b5, b6, b7, b8, rfl, decodeFields_eq_ok_iff.1 h⟩
  · rintro ⟨b0, b1, b2, b3, b4, b5, b6, b7, b8, rfl, hfields⟩
    rw [decodeFrame_nine]
    exact decodeFields_eq_ok_iff.2 hfields

end Sys2Proof.Machine
end

section
/-! PROOFS. What the resolver answers of a reading, from the entry of the unit table (spec R90). -/

namespace Sys2Proof.Machine

section
variable {u : UnitTable} {r : RangeCode} {f : FunctionCode}

/-- R90: a reading with no entry in the table has no value. -/
theorem resolveWith_of_entry_none (h : unitTableOf u r f = none) (d : DigitGroup) : resolveWith u r f d = none := by
  rw [resolveWith, h]

/-- R90: an entry gives the placement to format with and the unit of the value. -/
theorem resolveWith_of_entry_some {p : Placement} {unit : UnitDescriptor} (h : unitTableOf u r f = some (p, unit))
    (d : DigitGroup) : resolveWith u r f d = some (p, ⟨formatDigits p d, unit⟩) := by
  rw [resolveWith, h]

end

/-- Settles O27: one clause per answer of the table; `resolve` keeps the value and drops the placement, which only the
port carries (R58). -/
theorem resolveFollowsTheUnitTable : Obligations.ResolveFollowsTheUnitTable := by
  intro r f d
  constructor
  · intro h
    rw [resolve, resolveWith_of_entry_none h, Option.map_none]
  · intro p unit h
    rw [resolve, resolveWith_of_entry_some h, Option.map_some]

end Sys2Proof.Machine
end

section
/-! PROOFS. The framer's `FEED_DATA` in `Idle` and its `FEED_LF` in `AfterCr`, as instructions of their own (spec R98,
R101). -/

namespace Sys2Proof.Machine

/-- R44, R62: the framer reads an LF as `FEED_LF`, so feeding it is running that row. -/
theorem feed_lf_eq_exec_feedLf (s : State) : feed LF s = exec .feedLf s := by
  rw [feed, classify_lf]

/-- R98 in `Idle`: an accumulation with room does not write `st`, which is then still `Idle`. -/
theorem accumulate_room_idle {b : Byte} {s : State} (hst : s.st = .idle) (hroom : s.buf.length < 9) :
    accumulate b s = { s with out := .none, buf := s.buf ++ [b], st := .idle } := by
  rw [accumulate_room hroom, ← hst]

/-- Settles O36: in `Idle` the fed byte is accumulated, and with room in the buffer that appends it (R98). -/
theorem dataInIdleAccumulates : Obligations.DataInIdleAccumulates := by
  intro s b hst hroom hb
  calc exec (.feedData b) s
      = feed b s := (feed_eq_exec_feedData hb s).symm
    _ = .next (accumulate b s) := feed_data_idle hb hst
    _ = .next { s with out := .none, buf := s.buf ++ [b], st := .idle } := by rw [accumulate_room_idle hst hroom]

/-- Settles O38: in `AfterCr` a fed LF is swallowed whatever the buffer holds; `FEED_LF` clears it in any case (R101). -/
theorem lfAfterCrIsSwallowed : Obligations.LfAfterCrIsSwallowed := by
  intro s hst
  calc exec .feedLf s
      = feed LF s := (feed_lf_eq_exec_feedLf s).symm
    _ = .next { s with out := .none, buf := [], st := .idle } := feed_lf_afterCr hst

end Sys2Proof.Machine
end

section
/-! PROOFS. A legal function table reaches every function code (spec R67): it is injective and has as many entries as
there are codes. -/

namespace Sys2Proof

section
variable (T : FuncTable)

theorem mem_functionWindow_iff : ∀ b : Byte, b ∈ functionWindow ↔ inFunctionWindow b = true := by
  decide

/-- A code is its index. -/
theorem functionIndex_injective {f g : FunctionCode} (h : Machine.functionIndex f = Machine.functionIndex g) :
    f = g := by
  have hf := Machine.functionOfIndex_functionIndex f
  rwa [h, Machine.functionOfIndex_functionIndex, Option.some.injEq, eq_comm] at hf

/-- R67.1: the domain of a table, as a set of fifteen bytes. -/
theorem FuncTable.exists_domain : ∃ domain : Finset Byte, domain.card = 15 ∧
    ∀ b, b ∈ domain ↔ ∃ f, T.entry b = some f := by
  obtain ⟨m, hm, hnone⟩ := T.fifteen
  have hmem : m ∈ functionWindow.toFinset := List.mem_toFinset.2 ((mem_functionWindow_iff m).2 hm)
  refine ⟨functionWindow.toFinset.erase m, ?_, fun b => ?_⟩
  · rw [Finset.card_erase_of_mem hmem]
    decide
  · rw [Finset.mem_erase, List.mem_toFinset, mem_functionWindow_iff, ← Option.ne_none_iff_exists', ne_eq (T.entry b),
      hnone b, not_or, Bool.not_eq_false, and_comm]

/-- The index of the code a table gives a byte; 0 for a byte it does not have. -/
def FuncTable.codeIndex (b : Byte) : Nat := ((T.entry b).map Machine.functionIndex).getD 0

theorem FuncTable.codeIndex_of_entry {b : Byte} {f : FunctionCode} (h : T.entry b = some f) :
    T.codeIndex b = Machine.functionIndex f := by
  rw [codeIndex, h, Option.map_some, Option.getD_some]

/-- R67: fifteen bytes with fifteen different codes leave no code out. -/
theorem FuncTable.exists_entry (f : FunctionCode) : ∃ b, T.entry b = some f := by
  obtain ⟨domain, hcard, hdomain⟩ := T.exists_domain
  have hmaps : Set.MapsTo T.codeIndex domain (Finset.range 15) := by
    intro b hb
    obtain ⟨g, hg⟩ := (hdomain b).1 hb
    rw [T.codeIndex_of_entry hg, Finset.coe_range, Set.mem_Iio]
    exact Machine.functionIndex_lt g
  have hinj : Set.InjOn T.codeIndex domain := by
    intro a ha b hb hab
    obtain ⟨g, hg⟩ := (hdomain a).1 ha
    obtain ⟨k, hk⟩ := (hdomain b).1 hb
    rw [T.codeIndex_of_entry hg, T.codeIndex_of_entry hk] at hab
    exact T.injective a b k (functionIndex_injective hab ▸ hg) hk
  have hsurj := Finset.surjOn_of_injOn_of_card_le T.codeIndex hmaps hinj (by rw [hcard, Finset.card_range])
  obtain ⟨b, hb, hbf⟩ := hsurj (by simpa using Machine.functionIndex_lt f : Machine.functionIndex f ∈ _)
  obtain ⟨g, hg⟩ := (hdomain b).1 hb
  rw [T.codeIndex_of_entry hg] at hbf
  exact ⟨b, functionIndex_injective hbf ▸ hg⟩

/-- R67.1: every byte of a table is in the window. -/
theorem FuncTable.mem_window {b : Byte} {f : FunctionCode} (h : T.entry b = some f) : b ∈ functionWindow := by
  rw [mem_functionWindow_iff]
  by_contra hout
  rw [T.entry_outside (Bool.not_eq_true _ ▸ hout)] at h
  cases h

/-- The search for a code's byte finds one. -/
theorem entry_tableByte (f : FunctionCode) : T.entry (tableByte T f) = some f := by
  obtain ⟨b, hb⟩ := T.exists_entry f
  have hfound : (functionWindow.find? fun b => decide (T.entry b = some f)).isSome :=
    List.find?_isSome.2 ⟨b, T.mem_window hb, decide_eq_true hb⟩
  obtain ⟨c, hc⟩ := Option.isSome_iff_exists.1 hfound
  rw [tableByte, hc, Option.getD_some]
  exact of_decide_eq_true (List.find?_some hc :)

/-- R48: the byte of a function code is its byte in the table, fixed by the spec or not. -/
theorem entry_encodeFunction (f : FunctionCode) : T.entry (encodeFunction T f) = some f := by
  cases f with
  | ohm => exact T.ohm
  | manualAmpere => exact T.manualAmpere
  | voltage => exact T.voltage
  | adp0 => exact T.adp0
  | autoAmpere | diode | frequency | temperature | continuity | capacitor | adp2 | adp3 | adp1 | microAmpere
  | milliAmpere => exact entry_tableByte T _

end

/-- Settles O11: a code's byte exists because fifteen bytes carry fifteen codes, and is one because the table is
injective (R67.3); the one invalid byte of the window is the one R67.1 leaves out. -/
theorem functionTableIsABijection : Obligations.FunctionTableIsABijection := by
  intro T
  refine ⟨fun f => ?_, ?_⟩
  · obtain ⟨b, hb⟩ := T.exists_entry f
    exact ⟨b, decodeFunction_of_entry_some hb, fun c hc =>
      T.injective c b f ((decodeFunction_eq_ok_iff f).1 hc) hb⟩
  · obtain ⟨m, hm, hnone⟩ := T.fifteen
    have hwindow (b : Byte) : inFunctionWindow b = true ↔ 0x30 ≤ b.toNat ∧ b.toNat ≤ 0x3F := by
      simp [inFunctionWindow]
    obtain ⟨hlo, hhi⟩ := (hwindow m).1 hm
    refine ⟨m, ⟨hlo, hhi, decodeFunction_eq_error_iff.2 ((hnone m).2 (.inr rfl))⟩, ?_⟩
    rintro c ⟨hclo, hchi, hc⟩
    have hcin := (hwindow c).2 ⟨hclo, hchi⟩
    exact ((hnone c).1 (decodeFunction_eq_error_iff.1 hc)).resolve_left (by simp [hcin])

end Sys2Proof
end

section
/-! PROOFS. The round trips of the codec, one row of the opcode table per field value (spec R44, R47 to R52, R67). -/

namespace Sys2Proof

/-- The rows of the opcode table, by field: a property of every row need be shown once per field. -/
theorem Instr.cases_by_field {motive : Instr → Prop} (feedCr : motive .feedCr) (feedLf : motive .feedLf)
    (feedData : ∀ b, motive (.feedData b)) (range : ∀ r, motive (rangeInstr r)) (digit : ∀ d, motive (digitInstr d))
    (function : ∀ f, motive (functionInstr f)) (status : ∀ b, motive (.status b))
    (unusedByte7 : ∀ b, motive (.unusedByte7 b)) (option : ∀ b, motive (.option b)) : ∀ i, motive i
  | .feedCr => feedCr
  | .feedLf => feedLf
  | .feedData b => feedData b
  | .range0 => range .range0
  | .range1 => range .range1
  | .range2 => range .range2
  | .range3 => range .range3
  | .range4 => range .range4
  | .range5 => range .range5
  | .range6 => range .range6
  | .digit0 => digit 0
  | .digit1 => digit 1
  | .digit2 => digit 2
  | .digit3 => digit 3
  | .digit4 => digit 4
  | .digit5 => digit 5
  | .digit6 => digit 6
  | .digit7 => digit 7
  | .digit8 => digit 8
  | .digit9 => digit 9
  | .fnAutoAmpere => function .autoAmpere
  | .fnDiode => function .diode
  | .fnFrequency => function .frequency
  | .fnOhm => function .ohm
  | .fnTemperature => function .temperature
  | .fnContinuity => function .continuity
  | .fnCapacitor => function .capacitor
  | .fnAdp2 => function .adp2
  | .fnManualAmpere => function .manualAmpere
  | .fnAdp3 => function .adp3
  | .fnVoltage => function .voltage
  | .fnAdp1 => function .adp1
  | .fnMicroAmpere => function .microAmpere
  | .fnAdp0 => function .adp0
  | .fnMilliAmpere => function .milliAmpere
  | .status b => status b
  | .unusedByte7 b => unusedByte7 b
  | .option b => option b

@[simp] theorem slot_rangeInstr (r : RangeCode) : (rangeInstr r).slot = .range := by cases r <;> rfl

@[simp] theorem slot_digitInstr : ∀ d : Digit, (digitInstr d).slot = .digit := by decide

@[simp] theorem slot_functionInstr (f : FunctionCode) : (functionInstr f).slot = .function := by cases f <;> rfl

@[simp] theorem wf_rangeInstr (r : RangeCode) : (rangeInstr r).wf = true := by cases r <;> rfl

@[simp] theorem wf_digitInstr : ∀ d : Digit, (digitInstr d).wf = true := by decide

@[simp] theorem wf_functionInstr (f : FunctionCode) : (functionInstr f).wf = true := by cases f <;> rfl

section
variable (T : FuncTable)

/-- R47: the byte of a range row. -/
theorem toNat_encodeIn_rangeInstr (r : RangeCode) :
    (encodeIn T (rangeInstr r)).toNat = 0x30 + Machine.rangeIndex r := by
  cases r <;> rfl

/-- R49: the byte of a digit row. -/
theorem toNat_encodeIn_digitInstr (d : Digit) : (encodeIn T (digitInstr d)).toNat = 0x30 + d.val := by
  fin_cases d <;> rfl

theorem encodeIn_functionInstr (f : FunctionCode) : encodeIn T (functionInstr f) = encodeFunction T f := by
  cases f <;> rfl

end

/-- R63: a byte that is 0x30 plus the index of a range code gives that code. -/
theorem decodeRange_of_toNat {b : Byte} {r : RangeCode} (h : b.toNat = 0x30 + Machine.rangeIndex r) :
    decodeRange b = .ok r := by
  unfold decodeRange
  rw [h]
  cases r <;> rfl

/-- R63: only the bytes from 0x30 to 0x36 are range bytes. -/
theorem decodeRange_of_outside {b : Byte} (h : b.toNat < 0x30 ∨ 0x36 < b.toNat) :
    decodeRange b = .error (.invalidRange b) := by
  unfold decodeRange
  split
  case h_8 => rfl
  all_goals omega

/-- R20: every number below 7 is the index of a range code. -/
theorem exists_rangeIndex_eq : ∀ n < 7, ∃ r, Machine.rangeIndex r = n := by
  intro n hn
  interval_cases n
  exacts [⟨.range0, rfl⟩, ⟨.range1, rfl⟩, ⟨.range2, rfl⟩, ⟨.range3, rfl⟩, ⟨.range4, rfl⟩, ⟨.range5, rfl⟩,
    ⟨.range6, rfl⟩]

/-- Settles O8: a byte from 0x30 to 0x36 is 0x30 plus the index of a range code; every other byte is outside the
mapping. -/
theorem rangeDecoderIsExact : Obligations.RangeDecoderIsExact := by
  intro b
  refine ⟨fun ⟨hlo, hhi⟩ => ?_, decodeRange_of_outside⟩
  obtain ⟨r, hr⟩ := exists_rangeIndex_eq (b.toNat - 0x30) (by omega)
  have hb : 0x30 + Machine.rangeIndex r = b.toNat := by omega
  exact ⟨r, decodeRange_of_toNat hb.symm, hb⟩

/-- R63: the byte of a range code is its only byte. -/
theorem toNat_of_decodeRange_ok {b : Byte} {r : RangeCode} (h : decodeRange b = .ok r) :
    b.toNat = 0x30 + Machine.rangeIndex r := by
  by_cases hin : 0x30 ≤ b.toNat ∧ b.toNat ≤ 0x36
  · obtain ⟨r', hr', hb⟩ := (rangeDecoderIsExact b).1 hin
    cases h.symm.trans hr'
    exact hb.symm
  · cases h.symm.trans (decodeRange_of_outside (by omega))

/-- R68: the byte of a digit is its only byte. -/
theorem toNat_of_decodeDigit_ok {b : Byte} {d : Digit} (h : decodeDigit b = .ok d) : b.toNat = 0x30 + d.val := by
  by_cases hin : 0x30 ≤ b.toNat ∧ b.toNat ≤ 0x39
  · obtain ⟨d', hd', -, hb⟩ := (digitDecoderIsExact b).1 hin
    cases h.symm.trans hd'
    exact hb.symm
  · cases h.symm.trans (decodeDigit_of_outside (by omega))

/-- Settles O1: the rows of a field go through the field's mapping from the byte of their value, which decodes to that
value; the function byte is in the table because a legal table reaches every code. -/
theorem encodedInstructionDecodesToItself : Obligations.EncodedInstructionDecodesToItself := by
  intro T i hwf
  cases i using Instr.cases_by_field with
  | feedCr => exact congrArg Except.ok classify_cr
  | feedLf => exact congrArg Except.ok classify_lf
  | feedData b => exact congrArg Except.ok (classify_data hwf)
  | range r =>
    rw [slot_rangeInstr]
    exact decodeIn_range_of_ok T (decodeRange_of_toNat (toNat_encodeIn_rangeInstr T r))
  | digit d =>
    rw [slot_digitInstr]
    exact decodeIn_digit_of_ok T (decodeDigit_of_toNat (toNat_encodeIn_digitInstr T d).symm)
  | function f =>
    rw [slot_functionInstr, encodeIn_functionInstr]
    exact decodeIn_function_of_entry T (entry_encodeFunction T f)
  | status b => exact decodeIn_status T b
  | unusedByte7 b => exact decodeIn_unused T b
  | option b => exact decodeIn_option T b

/-- A decoder under a map of rows answers a row only where it answers a value. -/
theorem exists_of_map_eq_ok {α : Type} {x : Except FrameError α} {row : α → Instr} {i : Instr}
    (h : x.map row = .ok i) : ∃ a, x = .ok a ∧ row a = i := by
  cases x with
  | error e => cases h
  | ok a => exact ⟨a, rfl, Except.ok.inj h⟩

/-- R44: the row of a stream byte is well formed and has that byte. -/
theorem wf_classify_and_encodeIn (T : FuncTable) (b : Byte) :
    (classify b).wf = true ∧ encodeIn T (classify b) = b := by
  cases hb : isData b with
  | true => rw [classify_data hb]; exact ⟨hb, rfl⟩
  | false => obtain rfl | rfl := (terminator_iff b).1 hb <;> exact ⟨rfl, rfl⟩

/-- Settles O2: a field's value has one byte only, the range and digit values by their numbering and the function codes
because a legal table is injective. -/
theorem decodedByteIsItsEncoding : Obligations.DecodedByteIsItsEncoding := by
  intro T slot b i h
  cases slot with
  | stream =>
    cases h
    exact wf_classify_and_encodeIn T b
  | range =>
    obtain ⟨r, hr, rfl⟩ := exists_of_map_eq_ok h
    exact ⟨wf_rangeInstr r, BitVec.eq_of_toNat_eq <|
      (toNat_encodeIn_rangeInstr T r).trans (toNat_of_decodeRange_ok hr).symm⟩
  | digit =>
    obtain ⟨d, hd, rfl⟩ := exists_of_map_eq_ok h
    exact ⟨wf_digitInstr d, BitVec.eq_of_toNat_eq <|
      (toNat_encodeIn_digitInstr T d).trans (toNat_of_decodeDigit_ok hd).symm⟩
  | function =>
    obtain ⟨f, hf, rfl⟩ := exists_of_map_eq_ok h
    rw [encodeIn_functionInstr]
    exact ⟨wf_functionInstr f,
      T.injective _ _ f (entry_encodeFunction T f) ((decodeFunction_eq_ok_iff f).1 hf)⟩
  | status | unused | option =>
    cases h
    exact ⟨rfl, rfl⟩

theorem eq_cr_iff_toNat (b : Byte) : b = CR ↔ b.toNat = 0x0D := BitVec.toNat_inj.symm

theorem eq_lf_iff_toNat (b : Byte) : b = LF ↔ b.toNat = 0x0A := BitVec.toNat_inj.symm

/-- Settles O4: a byte has one class, and each terminator's class is its own. -/
theorem byteClassesAreExact : Obligations.ByteClassesAreExact := by
  intro T b
  have hdata : isData b = true ↔ b.toNat ≠ 0x0D ∧ b.toNat ≠ 0x0A := by
    rw [isData_iff, ne_eq, ne_eq, eq_cr_iff_toNat, eq_lf_iff_toNat]
  rw [decodeIn_stream, ← hdata, ← eq_cr_iff_toNat, ← eq_lf_iff_toNat, Except.ok.injEq, Except.ok.injEq, Except.ok.injEq]
  cases hb : isData b with
  | true =>
    obtain ⟨hcr, hlf⟩ := (isData_iff b).1 hb
    simp [classify_data hb, hcr, hlf]
  | false => obtain rfl | rfl := (terminator_iff b).1 hb <;> decide

end Sys2Proof
end

section
/-! PROOFS. The framer's arms as instructions of their own (spec R96, R97, R99, R102), and what a feed leaves on the
outcome port and in the registers. -/

namespace Sys2Proof.Machine

/-- R44, R62: the framer reads a CR as `FEED_CR`, so feeding it is running that row. -/
theorem feed_cr_eq_exec_feedCr (s : State) : feed CR s = exec .feedCr s := by
  rw [feed, classify_cr]

/-- Settles O34: feeding a CR is a boundary into `AfterCr`. -/
theorem crInIdleIsABoundary : Obligations.CrInIdleIsABoundary := by
  intro s _
  rw [← feed_cr_eq_exec_feedCr, feed_cr, boundary_eq]

/-- Settles O35: in `Idle` feeding an LF is a boundary into `Idle`. -/
theorem lfInIdleIsABoundary : Obligations.LfInIdleIsABoundary := by
  intro s hst
  rw [← feed_lf_eq_exec_feedLf, feed_lf_idle hst, boundary_eq]

/-- Settles O37: in `Idle` the fed byte is accumulated, and on a full buffer that slides the window by one byte
(R99). -/
theorem dataOnFullBufferSlides : Obligations.DataOnFullBufferSlides := by
  intro s b hst hfull hb
  calc exec (.feedData b) s
      = feed b s := (feed_eq_exec_feedData hb s).symm
    _ = .next (accumulate b s) := feed_data_idle hb hst
    _ = .next { s with out := .err (.lengthError 10), buf := s.buf.tail ++ [b], st := .idle } := by
      rw [accumulate_full hfull, ← hst]

/-- Settles O39: in `AfterCr` too a CR is a boundary, here on the empty buffer, whose decode is `LengthError` 0. -/
theorem crAfterCrIsAnEmptyBoundary : Obligations.CrAfterCrIsAnEmptyBoundary := by
  intro s _ hbuf
  rw [← feed_cr_eq_exec_feedCr, feed_cr, boundary_eq, hbuf, decodeFrame_nil, outcomeOf]

/-- R98, R99: an accumulation is silent exactly when the buffer has room. -/
theorem accumulate_out_eq_none_iff {b : Byte} {s : State} :
    (accumulate b s).out = .none ↔ s.buf.length < 9 := by
  by_cases hroom : s.buf.length < 9
  · simp [accumulate_room hroom, hroom]
  · simp [accumulate_over (not_lt.1 hroom), hroom]

theorem isData_cr : isData CR = false := rfl

theorem isData_lf : isData LF = false := rfl

theorem boundary_out_ne_none (x : FramerState) (s : State) : (boundary x s).out ≠ .none :=
  outcomeOf_ne_none _

/-- Settles O41: a boundary always emits, an accumulation is silent exactly when there is room, and the two silent arms
in `AfterCr` are a swallowed LF and the first byte of a frame, which finds the buffer empty (R30). -/
theorem outcomeIsSilentOnlyWhereTheRulesSay : Obligations.OutcomeIsSilentOnlyWhereTheRulesSay := by
  intro s t b ⟨_, _, hempty⟩ hfeed
  rcases feed_cases hfeed with ⟨rfl, rfl⟩ | ⟨rfl, hst, rfl⟩ | ⟨rfl, hst, rfl⟩ | ⟨hb, hst, rfl⟩ | ⟨hb, hst, rfl⟩
  · simp [boundary_out_ne_none, isData_cr, show CR ≠ LF by decide]
  · simp [boundary_out_ne_none, isData_lf, hst]
  · simp [hst]
  · simp [accumulate_out_eq_none_iff, hb, hst]
  · simp [hempty hst, hb]

/-- R96, R97, R101, R102: where a terminator leaves `st` depends on the terminator alone, and `buf` is then empty. -/
theorem feed_terminator_registers {b : Byte} {s t : State} (hb : isData b = false) (h : feed b s = .next t) :
    t.st = (if b = CR then .afterCr else .idle) ∧ t.buf = [] := by
  rcases feed_cases h with ⟨rfl, rfl⟩ | ⟨rfl, -, rfl⟩ | ⟨rfl, -, rfl⟩ | ⟨hdata, -, -⟩ | ⟨hdata, -, -⟩
  · exact ⟨rfl, rfl⟩
  · exact ⟨rfl, rfl⟩
  · exact ⟨rfl, rfl⟩
  · simp [hb] at hdata
  · simp [hb] at hdata

/-- Settles O42: the registers a terminator leaves are said without the buffer before it. -/
theorem errorsLeaveTheRegistersAsARecordDoes : Obligations.ErrorsLeaveTheRegistersAsARecordDoes := by
  intro s t t' b buf' hb h h'
  obtain ⟨hst, hbuf⟩ := feed_terminator_registers hb h
  obtain ⟨hst', hbuf'⟩ := feed_terminator_registers hb h'
  exact ⟨hst.trans hst'.symm, hbuf, hbuf'⟩

end Sys2Proof.Machine
end

section
/-! PROOFS. What every step keeps (spec R15, R30, R118) and shows (spec R72), and the steps that feed no byte (spec R93,
R124, R126). -/

namespace Sys2Proof.Machine

/-- Settles O44: the buffer is empty at reset. -/
theorem resetMeetsTheInvariant : Obligations.ResetMeetsTheInvariant :=
  ⟨Nat.zero_le _, by simp [State.reset], fun _ => rfl⟩

/-- Settles O43: R29 and the model's own fields, as reset writes them. -/
theorem resetStateIsFresh : Obligations.ResetStateIsFresh := ⟨rfl, rfl, rfl, rfl, rfl, rfl⟩

/-- The invariant speaks of `st` and `buf` only. -/
theorem State.Inv.of_registers_eq {s t : State} (hi : s.Inv) (hst : t.st = s.st) (hbuf : t.buf = s.buf) : t.Inv := by
  rw [State.Inv, hst, hbuf]
  exact hi

theorem State.Inv.of_buf_nil {s : State} (h : s.buf = []) : s.Inv := by
  simp [State.Inv, h]

/-- R15, R30: feeding a byte keeps the invariant. -/
theorem feed_keeps_inv {b : Byte} {s t : State} (hi : s.Inv) (h : feed b s = .next t) : t.Inv := by
  rcases feed_cases h with ⟨-, rfl⟩ | ⟨-, -, rfl⟩ | ⟨-, -, rfl⟩ | ⟨hb, hst, rfl⟩ | ⟨hb, hst, rfl⟩
  · exact boundary_keeps_inv _ s
  · exact boundary_keeps_inv _ s
  · exact .of_buf_nil rfl
  · exact accumulate_keeps_inv hi hst hb
  · obtain ⟨-, -, hempty⟩ := hi
    simp [State.Inv, hempty hst, hb, FRAME_LEN]

/-- Settles O45: a fed byte keeps the invariant, a reset empties the buffer, and everything else a step can be leaves
`st` and `buf` alone. -/
theorem everyStepKeepsTheInvariant : Obligations.EveryStepKeepsTheInvariant := by
  intro s t hi h
  rcases step_cases h with ⟨-, rfl⟩ | ⟨op, rest, -, ⟨b, -, hfeed⟩ | ⟨-, rfl⟩ | ⟨-, -, r, rfl⟩⟩
  · exact hi.of_registers_eq rfl rfl
  · have hi' : (s.quiet.withPending rest).Inv := hi.of_registers_eq rfl rfl
    exact feed_keeps_inv hi' hfeed
  · exact .of_buf_nil rfl
  · exact hi.of_registers_eq rfl rfl

/-- R79: a buffer of at most 9 bytes decodes to a `LengthError` only below 9. -/
theorem decodeFrame_length_lt {T : FuncTable} {bytes : List Byte} {n : Nat} (hle : bytes.length ≤ 9)
    (h : decodeFrame T bytes = .error (.lengthError n)) : n < 9 := by
  rcases hle.lt_or_eq with hlt | hnine
  · rw [wrongLengthIsALengthError T bytes hlt.ne] at h
    cases h
    exact hlt
  · obtain ⟨b0, b1, b2, b3, b4, b5, b6, b7, b8, rfl⟩ := exists_bytes_of_length_nine hnine
    exact absurd h (decodeFields_not_length T b0 b1 b2 b3 b4 b5 b6 b8 n)

theorem outcomeOf_eq_err_iff {x : Except FrameError Record} {e : FrameError} : outcomeOf x = .err e ↔ x = .error e := by
  cases x <;> simp [outcomeOf]

theorem State.OutcomeInRange.of_out_none {s : State} (h : s.out = .none) : s.OutcomeInRange := by
  simp [State.OutcomeInRange, h]

/-- R118: a boundary on a buffer in its canonical form. -/
theorem boundary_outcomeInRange (x : FramerState) {s : State} (hi : s.Inv) : (boundary x s).OutcomeInRange := by
  intro n hn
  have hlt := decodeFrame_length_lt hi.1 (outcomeOf_eq_err_iff.1 hn)
  exact .inl (Nat.le_of_lt_succ hlt)

/-- R100, R118: an accumulation that overflows has found exactly 9 bytes. -/
theorem accumulate_outcomeInRange (b : Byte) {s : State} (hi : s.Inv) : (accumulate b s).OutcomeInRange := by
  rcases (show s.buf.length ≤ 9 from hi.1).lt_or_eq with hroom | hfull
  · exact .of_out_none (by rw [accumulate_room hroom])
  · intro n hn
    rw [accumulate_full hfull] at hn
    cases hn
    exact .inr rfl

/-- Settles O46: only a boundary and an overflow put an error on the port, and both find at most 9 bytes in the
buffer. -/
theorem everyStepKeepsLengthErrorsInRange : Obligations.EveryStepKeepsLengthErrorsInRange := by
  intro s t hi h
  rcases step_cases h with ⟨-, rfl⟩ | ⟨op, rest, -, ⟨b, -, hfeed⟩ | ⟨-, rfl⟩ | ⟨-, -, r, rfl⟩⟩
  · exact .of_out_none rfl
  · have hi' : (s.quiet.withPending rest).Inv := hi.of_registers_eq rfl rfl
    rcases feed_cases hfeed with ⟨-, rfl⟩ | ⟨-, -, rfl⟩ | ⟨-, -, rfl⟩ | ⟨-, -, rfl⟩ | ⟨-, -, rfl⟩
    · exact boundary_outcomeInRange _ hi'
    · exact boundary_outcomeInRange _ hi'
    · exact .of_out_none rfl
    · exact accumulate_outcomeInRange b hi'
    · exact .of_out_none rfl
  · exact .of_out_none rfl
  · exact .of_out_none rfl

/-- Settles O56: reset has both properties, presenting operations changes nothing they speak of, and every step keeps
the first and gives the second. -/
theorem reachableStatesAreWellFormed : Obligations.ReachableStatesAreWellFormed := by
  intro s hs
  induction hs with
  | reset => exact ⟨resetMeetsTheInvariant, .of_out_none rfl⟩
  | present s ops _ ih => exact ⟨ih.1.of_registers_eq rfl rfl, ih.2⟩
  | step s t _ h ih => exact ⟨everyStepKeepsTheInvariant s t ih.1 h, everyStepKeepsLengthErrorsInRange s t ih.1 h⟩

/-- Settles O47: the operation a step takes is run on empty ports, and a reset clears the registers. -/
theorem hostResetClearsTheRegisters : Obligations.HostResetClearsTheRegisters := by
  intro s rest hp
  rw [step_cons hp]
  rfl

/-- Settles O48: with nothing presented a step empties the ports. -/
theorem nothingPresentedHoldsTheRegisters : Obligations.NothingPresentedHoldsTheRegisters := by
  intro s hp
  rw [step_nil hp]
  rfl

/-- Settles O5: feeding a byte is running its stream row (R95), and the stream rejects no byte. -/
theorem stepRunsTheDecodedInstruction : Obligations.StepRunsTheDecodedInstruction := by
  intro s b rest i hp hi _
  rw [decode_stream] at hi
  cases hi
  rw [step_cons hp]
  rfl

/-- Settles O7: the placed byte is the next operation, and the stream reads every byte. -/
theorem placedByteRunsNext : Obligations.PlacedByteRunsNext := by
  intro s w _
  refine ⟨classify (tableByteOf 8 w), rfl, ?_⟩
  have hp : (s.withFetchWord 8 w).pending = .feed (tableByteOf 8 w) :: s.pending := rfl
  rw [step_cons hp]
  rfl

/-- Settles O59: a step begins with the field output empty, whatever it was; no operation of the host writes it. -/
theorem stepsNeverShowTheFieldOutput : Obligations.StepsNeverShowTheFieldOutput := by
  refine ⟨fun s t h => ?_, fun s v => rfl⟩
  rcases step_cases h with ⟨-, rfl⟩ | ⟨op, rest, -, ⟨b, -, hfeed⟩ | ⟨-, rfl⟩ | ⟨-, -, r, rfl⟩⟩
  · rfl
  · exact feed_field hfeed
  · rfl
  · rfl

end Sys2Proof.Machine
end

section
/-! PROOFS. What the field rows give when they are run, and the bits the flag decoders read (spec R52, R63 to R72). -/

namespace Sys2Proof.Machine

/-- R63, R72: a range row gives its code and changes nothing else. -/
theorem exec_rangeInstr (r : RangeCode) (s : State) :
    exec (rangeInstr r) s = .next { s with field := some (.range r) } := by
  cases r <;> rfl

/-- R68, R72: a digit row gives its digit and changes nothing else. -/
theorem exec_digitInstr (d : Digit) (s : State) :
    exec (digitInstr d) s = .next { s with field := some (.digit d) } := by
  fin_cases d <;> rfl

/-- R66, R72: a function row gives its code and changes nothing else. -/
theorem exec_functionInstr (f : FunctionCode) (s : State) :
    exec (functionInstr f) s = .next { s with field := some (.function f) } := by
  cases f <;> rfl

/-- R69, R70: STATUS gives the flags of its byte. -/
theorem exec_status (b : Byte) (s : State) :
    exec (.status b) s = .next { s with field := some (.status (decodeStatus b)) } := rfl

/-- R52: UNUSED_BYTE7 gives nothing. -/
theorem exec_unusedByte7 (b : Byte) (s : State) : exec (.unusedByte7 b) s = .next { s with field := none } := rfl

/-- R69, R71: OPTION gives the flags of its byte. -/
theorem exec_option (b : Byte) (s : State) :
    exec (.option b) s = .next { s with field := some (.option (decodeOption b)) } := rfl

/-- Settles O14: the seven range codes, one row each. -/
theorem rangeRowsGiveTheirCode : Obligations.RangeRowsGiveTheirCode := fun s =>
  ⟨exec_rangeInstr .range0 s, exec_rangeInstr .range1 s, exec_rangeInstr .range2 s, exec_rangeInstr .range3 s,
    exec_rangeInstr .range4 s, exec_rangeInstr .range5 s, exec_rangeInstr .range6 s⟩

/-- Settles O15: the ten digits, one row each. -/
theorem digitRowsGiveTheirDigit : Obligations.DigitRowsGiveTheirDigit := fun s =>
  ⟨exec_digitInstr 0 s, exec_digitInstr 1 s, exec_digitInstr 2 s, exec_digitInstr 3 s, exec_digitInstr 4 s,
    exec_digitInstr 5 s, exec_digitInstr 6 s, exec_digitInstr 7 s, exec_digitInstr 8 s, exec_digitInstr 9 s⟩

/-- Settles O16: the fifteen function codes, one row each. -/
theorem functionRowsGiveTheirCode : Obligations.FunctionRowsGiveTheirCode := fun s =>
  ⟨exec_functionInstr .autoAmpere s, exec_functionInstr .diode s, exec_functionInstr .frequency s,
    exec_functionInstr .ohm s, exec_functionInstr .temperature s, exec_functionInstr .continuity s,
    exec_functionInstr .capacitor s, exec_functionInstr .adp2 s, exec_functionInstr .manualAmpere s,
    exec_functionInstr .adp3 s, exec_functionInstr .voltage s, exec_functionInstr .adp1 s,
    exec_functionInstr .microAmpere s, exec_functionInstr .adp0 s, exec_functionInstr .milliAmpere s⟩

/-- Settles O17: the three rows whose formats take every byte. -/
theorem flagRowsTakeEveryByte : Obligations.FlagRowsTakeEveryByte := fun s b =>
  ⟨exec_status b s, exec_unusedByte7 b s, exec_option b s⟩

/-- R72: a field row writes the field output and nothing else. -/
theorem exec_field_row {i : Instr} (h : i.slot ≠ .stream) (s : State) :
    ∃ v, exec i s = .next { s with field := v } := by
  cases i using Instr.cases_by_field with
  | feedCr | feedLf | feedData => exact absurd rfl h
  | range r => exact ⟨_, exec_rangeInstr r s⟩
  | digit d => exact ⟨_, exec_digitInstr d s⟩
  | function f => exact ⟨_, exec_functionInstr f s⟩
  | status b => exact ⟨_, exec_status b s⟩
  | unusedByte7 b => exact ⟨_, exec_unusedByte7 b s⟩
  | option b => exact ⟨_, exec_option b s⟩

/-- Settles O49: an operation that is no feed and no reset is a query, which writes the resolve port only. -/
theorem queriesAndFieldBytesLeaveTheFramerAlone : Obligations.QueriesAndFieldBytesLeaveTheFramerAlone := by
  refine ⟨fun s t op rest hp hreset hfeed h => ?_, fun s i hi => exec_field_row hi s⟩
  rcases step_cases h with ⟨hnil, -⟩ | ⟨op', rest', hp', hop⟩
  · cases hnil.symm.trans hp
  · cases hp'.symm.trans hp
    rcases hop with ⟨b, hb, -⟩ | ⟨hop, -⟩ | ⟨-, -, r, rfl⟩
    · exact absurd hb (hfeed b)
    · exact absurd hop hreset
    · exact ⟨rfl, rfl, rfl⟩

/-- R10: a bit of a byte, as arithmetic on its value. -/
theorem bitOf_eq_true_iff (b : Byte) (i : Nat) : bitOf b i = true ↔ b.toNat / 2 ^ i % 2 = 1 := by
  rw [bitOf, BitVec.getLsbD, Nat.testBit_eq_decide_div_mod_eq, decide_eq_true_iff]

/-- Equal values of a bit are equal bits. -/
theorem bitOf_congr {b c : Byte} {i : Nat} (h : c.toNat / 2 ^ i % 2 = b.toNat / 2 ^ i % 2) : bitOf c i = bitOf b i := by
  rw [Bool.eq_iff_iff, bitOf_eq_true_iff, bitOf_eq_true_iff, h]

/-- R70: the status decoder reads bits 0 to 3 only. -/
theorem decodeStatus_congr {b c : Byte} (h : ∀ i < 4, bitOf c i = bitOf b i) : decodeStatus c = decodeStatus b := by
  rw [decodeStatus, decodeStatus, h 0 (by decide), h 1 (by decide), h 2 (by decide), h 3 (by decide)]

/-- R71: the option decoder reads bits 1 to 3 only. -/
theorem decodeOption_congr {b c : Byte} (h : ∀ i < 3, bitOf c (i + 1) = bitOf b (i + 1)) :
    decodeOption c = decodeOption b := by
  rw [decodeOption, decodeOption, h 0 (by decide), h 1 (by decide), h 2 (by decide)]

theorem decodeStatus_tempUnit_eq_celsius_iff (b : Byte) : (decodeStatus b).tempUnit = .celsius ↔ bitOf b 3 = true := by
  simp [decodeStatus]

theorem decodeStatus_sign_eq_negative_iff (b : Byte) : (decodeStatus b).sign = .negative ↔ bitOf b 2 = true := by
  simp [decodeStatus]

/-- Settles O12: each flag is a bit the decoder reads, and bytes with the same low nibble have the same such bits. -/
theorem statusFlagsAreTheLowBits : Obligations.StatusFlagsAreTheLowBits := by
  intro b
  refine ⟨(decodeStatus_tempUnit_eq_celsius_iff b).trans (bitOf_eq_true_iff b 3),
    (decodeStatus_sign_eq_negative_iff b).trans (bitOf_eq_true_iff b 2), bitOf_eq_true_iff b 1, ?_, fun c hc => ?_⟩
  · have h0 := bitOf_eq_true_iff b 0
    rwa [pow_zero, Nat.div_one] at h0
  · refine decodeStatus_congr fun i hi => bitOf_congr ?_
    interval_cases i <;> omega

/-- Settles O13: each flag is a bit the decoder reads, and bytes with the same bits 3 to 1 have the same such bits. -/
theorem optionFlagsAreTheirBits : Obligations.OptionFlagsAreTheirBits := by
  intro b
  refine ⟨bitOf_eq_true_iff b 3, bitOf_eq_true_iff b 2, bitOf_eq_true_iff b 1, fun c hc => ?_⟩
  refine decodeOption_congr fun i hi => bitOf_congr ?_
  interval_cases i <;> omega

theorem isNegative_eq_true_iff (s : StatusFlags) : isNegative s = true ↔ s.sign = .negative := beq_iff_eq

theorem isPositive_eq_true_iff (s : StatusFlags) : isPositive s = true ↔ s.sign = .positive := beq_iff_eq

/-- Settles O57: there are two signs, and each predicate is the test for its own. -/
theorem signPredicatesNameTheSign : Obligations.SignPredicatesNameTheSign := by
  intro s b
  refine ⟨isNegative_eq_true_iff s, isPositive_eq_true_iff s, ?_, ?_⟩
  · rw [isPositive, isNegative]
    cases s.sign <;> rfl
  · rw [Bool.eq_iff_iff, isNegative_eq_true_iff, decodeStatus_sign_eq_negative_iff, bitOf]

end Sys2Proof.Machine
end

section
/-! PROOFS. The frame decoder as the field rows run over the frame, and the error it gives (spec R45, R72 to R77). -/

namespace Sys2Proof.Machine

/-- R65: what a field output carries of a decoder's result, the value under its field's name or the error. -/
def fieldValue {α : Type} (name : α → FieldValue) : Except FrameError α → FieldValue
  | .ok a => name a
  | .error e => .rejected e

theorem fieldValue_range_eq_iff {x : Except FrameError RangeCode} {r : RangeCode} :
    fieldValue .range x = .range r ↔ x = .ok r := by
  cases x <;> simp [fieldValue]

theorem fieldValue_digit_eq_iff {x : Except FrameError Digit} {d : Digit} :
    fieldValue .digit x = .digit d ↔ x = .ok d := by
  cases x <;> simp [fieldValue]

theorem fieldValue_function_eq_iff {x : Except FrameError FunctionCode} {f : FunctionCode} :
    fieldValue .function x = .function f ↔ x = .ok f := by
  cases x <;> simp [fieldValue]

/-- The error of a result, whatever its field, is the error its output carries. -/
theorem rejectionOf_fieldValue {α : Type} (name : α → FieldValue) (hname : ∀ a, rejectionOf (some (name a)) = none)
    (x : Except FrameError α) : rejectionOf (some (fieldValue name x)) = errorOf x := by
  cases x with
  | ok a => exact hname a
  | error e => rfl

section
variable (T : FuncTable) (s : State) (b : Byte)

theorem fieldOf_range : fieldOf T s .range b = some (fieldValue .range (decodeRange b)) := by
  cases h : decodeRange b with
  | ok r => rw [fieldOf, decodeIn_range_of_ok T h]; simp only [exec_rangeInstr, fieldValue]
  | error e => rw [fieldOf, decodeIn_range_of_error T h]; rfl

theorem fieldOf_digit : fieldOf T s .digit b = some (fieldValue .digit (decodeDigit b)) := by
  cases h : decodeDigit b with
  | ok d => rw [fieldOf, decodeIn_digit_of_ok T h]; simp only [exec_digitInstr, fieldValue]
  | error e => rw [fieldOf, decodeIn_digit_of_error T h]; rfl

theorem fieldOf_function : fieldOf T s .function b = some (fieldValue .function (decodeFunction T b)) := by
  cases h : decodeFunction T b with
  | ok f =>
    rw [fieldOf, decodeIn_function_of_entry T ((decodeFunction_eq_ok_iff f).1 h)]
    simp only [exec_functionInstr, fieldValue]
  | error e => rw [fieldOf, decodeIn, h]; rfl

theorem fieldOf_status : fieldOf T s .status b = some (.status (decodeStatus b)) := rfl

theorem fieldOf_unused : fieldOf T s .unused b = none := rfl

theorem fieldOf_option : fieldOf T s .option b = some (.option (decodeOption b)) := rfl

end

/-- R45: the outputs of a frame's bytes, each in its format. -/
theorem frameFields_nine (T : FuncTable) (s : State) (b0 b1 b2 b3 b4 b5 b6 b7 b8 : Byte) :
    frameFields T s [b0, b1, b2, b3, b4, b5, b6, b7, b8] =
      [some (fieldValue .range (decodeRange b0)), some (fieldValue .digit (decodeDigit b1)),
       some (fieldValue .digit (decodeDigit b2)), some (fieldValue .digit (decodeDigit b3)),
       some (fieldValue .digit (decodeDigit b4)), some (fieldValue .function (decodeFunction T b5)),
       some (.status (decodeStatus b6)), none, some (.option (decodeOption b8))] := by
  simp only [frameFields, frameLayout, List.zipWith_cons_cons, List.zipWith_nil_left, fieldOf_range, fieldOf_digit,
    fieldOf_function, fieldOf_status, fieldOf_unused, fieldOf_option]

theorem errorOf_eq_some_iff {α : Type} {x : Except FrameError α} {e : FrameError} :
    errorOf x = some e ↔ x = .error e := by
  cases x <;> simp [errorOf]

/-- Settles O22: a frame's nine outputs are the results of the field decoders; the Record is theirs (R76) and the error
is the first of them (R75). -/
theorem frameDecoderRunsTheFieldRows : Obligations.FrameDecoderRunsTheFieldRows := by
  intro T s bytes hlen
  obtain ⟨b0, b1, b2, b3, b4, b5, b6, b7, b8, rfl⟩ := exists_bytes_of_length_nine hlen
  rw [frameFields_nine]
  constructor
  · intro r
    simp [decodeFields_eq_ok_iff, fieldsOfRecord, fieldValue_range_eq_iff, fieldValue_digit_eq_iff,
      fieldValue_function_eq_iff]
  · intro e
    have hrange := rejectionOf_fieldValue .range (fun _ => rfl) (decodeRange b0)
    have hdigit (b : Byte) := rejectionOf_fieldValue .digit (fun _ => rfl) (decodeDigit b)
    have hfunction := rejectionOf_fieldValue .function (fun _ => rfl) (decodeFunction T b5)
    have hstatus : rejectionOf (some (.status (decodeStatus b6))) = none := rfl
    have hunused : rejectionOf none = none := rfl
    have hoption : rejectionOf (some (.option (decodeOption b8))) = none := rfl
    rw [← errorOf_eq_some_iff, firstFieldErrorIsReported]
    simp only [List.findSome?_cons, List.findSome?_nil, hrange, hdigit, hfunction, hstatus, hunused, hoption, id]

/-- Settles O21: the field decoders are not given byte 7. -/
theorem frameByteSevenIsIgnored : Obligations.FrameByteSevenIsIgnored := by
  intro T b0 b1 b2 b3 b4 b5 b6 x y b8
  rw [decodeFrame_nine, decodeFrame_nine]

/-- R47 to R49: the error of a format that rejects a byte names the byte; the other formats take every byte. -/
theorem decode_error_cases {slot : Slot} {b : Byte} {e : FrameError} (h : decode slot b = .error e) :
    (slot = .range ∧ e = .invalidRange b) ∨ (slot = .digit ∧ e = .invalidDigit b) ∨
      (slot = .function ∧ e = .invalidFunction b) := by
  cases slot with
  | stream | status | unused | option => cases h
  | range =>
    refine .inl ⟨rfl, ?_⟩
    by_cases hin : 0x30 ≤ b.toNat ∧ b.toNat ≤ 0x36
    · obtain ⟨r, hr, -⟩ := (rangeDecoderIsExact b).1 hin
      cases h.symm.trans (decodeIn_range_of_ok _ hr)
    · cases h.symm.trans (decodeIn_range_of_error _ (decodeRange_of_outside (by omega)))
      rfl
  | digit =>
    refine .inr (.inl ⟨rfl, ?_⟩)
    by_cases hin : 0x30 ≤ b.toNat ∧ b.toNat ≤ 0x39
    · obtain ⟨d, hd, -⟩ := (digitDecoderIsExact b).1 hin
      cases h.symm.trans (decodeIn_digit_of_ok _ hd)
    · cases h.symm.trans (decodeIn_digit_of_error _ (decodeDigit_of_outside (by omega)))
      rfl
  | function =>
    refine .inr (.inr ⟨rfl, ?_⟩)
    cases hentry : Config.funcTable.entry b with
    | some f => cases h.symm.trans (decodeIn_function_of_entry _ hentry)
    | none =>
      rw [decode, decodeIn, decodeFunction_of_entry_none hentry] at h
      cases h
      rfl

/-- R65: a byte its format rejects leaves its error on the field output. -/
theorem rejectionOf_fieldOf_of_error {T : FuncTable} {slot : Slot} {b : Byte} {e : FrameError}
    (h : decodeIn T slot b = .error e) (s : State) : rejectionOf (fieldOf T s slot b) = some e := by
  rw [fieldOf, h]
  rfl

/-- R65: a frame byte its format takes leaves no error on the field output. -/
theorem rejectionOf_fieldOf_of_ok {T : FuncTable} {slot : Slot} {b : Byte} {k : Instr} (hslot : slot ≠ .stream)
    (h : decodeIn T slot b = .ok k) (s : State) : rejectionOf (fieldOf T s slot b) = none := by
  cases slot with
  | stream => exact absurd rfl hslot
  | range =>
    obtain ⟨r, hr, -⟩ := exists_of_map_eq_ok h
    rw [fieldOf_range, hr]
    rfl
  | digit =>
    obtain ⟨d, hd, -⟩ := exists_of_map_eq_ok h
    rw [fieldOf_digit, hd]
    rfl
  | function =>
    obtain ⟨f, hf, -⟩ := exists_of_map_eq_ok h
    rw [fieldOf_function, hf]
    rfl
  | status | unused | option => rfl

/-- The first answer of a search is that of the first element that has one. -/
theorem findSome?_eq_some_of_first {α β : Type} {f : α → Option β} {l : List α} {i : Nat} {a : α} {y : β}
    (ha : l[i]? = some a) (hy : f a = some y) (hbefore : ∀ (j : Nat) (c : α), j < i → l[j]? = some c → f c = none) :
    l.findSome? f = some y := by
  obtain ⟨hi, rfl⟩ := List.getElem?_eq_some_iff.1 ha
  rw [List.findSome?_eq_some_iff]
  refine ⟨l.take i, l[i], l.drop (i + 1), ?_, hy, fun c hc => ?_⟩
  · rw [List.cons_getElem_drop_succ, List.take_append_drop]
  · obtain ⟨j, hj⟩ := List.mem_iff_getElem?.1 hc
    obtain ⟨hlt, -⟩ := List.getElem?_eq_some_iff.1 hj
    have hji : j < i := by
      rw [List.length_take] at hlt
      omega
    rw [List.getElem?_take_of_lt hji] at hj
    exact hbefore j c hji hj

/-- R45: no frame byte is in the stream's format. -/
theorem ne_stream_of_frameLayout {i : Nat} {slot : Slot} (h : frameLayout[i]? = some slot) : slot ≠ .stream := by
  rintro rfl
  exact absurd (List.mem_of_getElem? h) (by decide)

/-- R75: the first byte its format rejects gives the error of the frame. -/
theorem decodeFrame_of_first_rejected {T : FuncTable} {bytes : List Byte} {i : Nat} {slot : Slot} {b : Byte}
    {e : FrameError} (hlen : bytes.length = 9) (hslot : frameLayout[i]? = some slot) (hb : bytes[i]? = some b)
    (he : decodeIn T slot b = .error e)
    (hbefore : ∀ (j : Nat) (slot' : Slot) (b' : Byte), j < i → frameLayout[j]? = some slot' → bytes[j]? = some b' →
      ∃ k, decodeIn T slot' b' = .ok k) :
    decodeFrame T bytes = .error e := by
  refine ((frameDecoderRunsTheFieldRows T State.reset bytes hlen).2 e).2 ?_
  have houtput : (frameFields T State.reset bytes)[i]? = some (fieldOf T State.reset slot b) :=
    List.getElem?_zipWith_eq_some.2 ⟨slot, b, hslot, hb, rfl⟩
  refine findSome?_eq_some_of_first houtput (rejectionOf_fieldOf_of_error he _) fun j v hj hv => ?_
  obtain ⟨slot', b', hslot', hb', rfl⟩ := List.getElem?_zipWith_eq_some.1 hv
  obtain ⟨k, hk⟩ := hbefore j slot' b' hj hslot' hb'
  exact rejectionOf_fieldOf_of_ok (ne_stream_of_frameLayout hslot') hk _

/-- R96, R97: in `Idle` either terminator is a boundary, and the byte selects the next `st`. -/
theorem feed_terminator_idle {b : Byte} {s : State} (hb : isData b = false) (hst : s.st = .idle) :
    feed b s = .next (boundary (if b = CR then .afterCr else .idle) s) := by
  obtain rfl | rfl := (terminator_iff b).1 hb
  · rw [feed_cr, if_pos rfl]
  · rw [feed_lf_idle hst, if_neg (by decide)]

/-- Settles O6: the step is a boundary, and the frame's error is that of the first byte its format rejects. -/
theorem rejectedFieldByteGivesItsError : Obligations.RejectedFieldByteGivesItsError := by
  intro s t rest i slot b e hp ht hst hlen hslot hb he hbefore
  refine ⟨decode_error_cases he, ?_⟩
  have hframe : decodeFrame Config.funcTable s.buf = .error e :=
    decodeFrame_of_first_rejected hlen hslot hb he hbefore
  calc step s
      = feed t (s.quiet.withPending rest) := step_cons hp
    _ = .next (boundary (if t = CR then .afterCr else .idle) (s.quiet.withPending rest)) :=
      feed_terminator_idle ht hst
    _ = .next { st := if t = CR then .afterCr else .idle, buf := [], out := .err e, reply := .noQuery,
                field := none, pending := rest } := by
      rw [boundary_eq, State.withPending_buf, State.quiet_buf, hframe]
      rfl

end Sys2Proof.Machine
end

section
/-! PROOFS. The unit table, the resolve queries, and the queries that are refused (spec R86 to R94, R115). -/

namespace Sys2Proof.Machine

/-- Settles O24: R88 as the table is written, before any entry of the parameter is read. -/
theorem unitTableHasItsFixedEntries : Obligations.UnitTableHasItsFixedEntries := fun _ => ⟨rfl, rfl, rfl, rfl⟩

/-- R89: the functions that have a unit at no range. -/
theorem unitTableOf_unmapped (u : UnitTable) (r : RangeCode) {f : FunctionCode}
    (hf : f ∈ [FunctionCode.temperature, .continuity, .diode, .adp0, .adp1, .adp2, .adp3]) :
    unitTableOf u r f = none := by
  simp only [List.mem_cons, List.not_mem_nil, or_false] at hf
  rcases hf with rfl | rfl | rfl | rfl | rfl | rfl | rfl <;> cases r <;> rfl

/-- Settles O25: the seven functions without a unit at any range, and the one absent pair. -/
theorem unitTableHasItsFixedAbsences : Obligations.UnitTableHasItsFixedAbsences := by
  intro u
  refine ⟨rfl, fun r => ⟨?_, ?_, ?_, ?_, ?_, ?_, ?_⟩⟩ <;> exact unitTableOf_unmapped u r (by simp)

/-- R88, R89: the table has the fixed entries over any parameter. -/
theorem fixedUnitEntries_unitTableOf (u : UnitTable) : FixedUnitEntries (unitTableOf u) where
  range0Voltage := rfl
  range2Voltage := rfl
  range5Ohm := rfl
  range0ManualAmpere := rfl
  range3MicroAmpere := rfl
  absent r _ hf := unitTableOf_unmapped u r hf

/-- Settles O26: each arm of the table is one the fixed entries give, or the parameter's own entry. -/
theorem unitTableCoversEveryLegalTable : Obligations.UnitTableCoversEveryLegalTable := by
  intro u
  refine ⟨fixedUnitEntries_unitTableOf u, fun hu => ?_⟩
  funext r f
  unfold unitTableOf
  split
  · exact hu.range0Voltage.symm
  · exact hu.range2Voltage.symm
  · exact hu.range5Ohm.symm
  · exact hu.range0ManualAmpere.symm
  case h_12 => exact hu.range3MicroAmpere.symm
  case h_13 => rfl
  all_goals exact (hu.absent r _ (by simp)).symm

/-- R22: the digits of a group are what its four nibbles read as. -/
@[simp] theorem digitsOfNibbles_val (d : DigitGroup) :
    digitsOfNibbles d.d0.val d.d1.val d.d2.val d.d3.val = some d := by
  simp [digitsOfNibbles]

/-- A number that fits a port is what the port carries. -/
theorem toNat_ofNat_of_fits {w n : Nat} (h : n < 2 ^ w) : (BitVec.ofNat w n).toNat = n := by
  rw [BitVec.toNat_ofNat, Nat.mod_eq_of_lt h]

/-- R93: the value of the digit nibbles, d0 highest. -/
theorem toNat_digitsWord (d : DigitGroup) :
    (digitsWord d).toNat = d.d0.val * 2 ^ 12 + d.d1.val * 2 ^ 8 + d.d2.val * 2 ^ 4 + d.d3.val :=
  toNat_ofNat_of_fits (by omega)

/-- R93: a query with the codes of a range, a function and digits is answered from these. -/
theorem queryCodes_of_codes (r : RangeCode) (f : FunctionCode) (d : DigitGroup) (s : State) :
    queryCodes (BitVec.ofNat 3 (rangeIndex r)) (BitVec.ofNat 4 (functionIndex f)) (digitsWord d) s =
      .next (s.answer (replyOf (resolveWith Config.unitTableParam r f d))) := by
  have hrange : (BitVec.ofNat 3 (rangeIndex r)).toNat = rangeIndex r :=
    toNat_ofNat_of_fits ((rangeIndex_lt r).trans (by decide))
  have hfunction : (BitVec.ofNat 4 (functionIndex f)).toNat = functionIndex f :=
    toNat_ofNat_of_fits ((functionIndex_lt f).trans (by decide))
  have hword := toNat_digitsWord d
  have h0 : (digitsWord d).toNat / 2 ^ 12 = d.d0.val := by omega
  have h1 : (digitsWord d).toNat / 2 ^ 8 % 16 = d.d1.val := by omega
  have h2 : (digitsWord d).toNat / 2 ^ 4 % 16 = d.d2.val := by omega
  have h3 : (digitsWord d).toNat % 16 = d.d3.val := by omega
  simp only [queryCodes, hrange, hfunction, h0, h1, h2, h3, rangeOfIndex_rangeIndex, functionOfIndex_functionIndex,
    digitsOfNibbles_val]

/-- Settles O28: the codes of a query read as the values they are the codes of. -/
theorem resolveQueryIsAnswered : Obligations.ResolveQueryIsAnswered := by
  intro s rest r f d hp
  rw [step_cons hp, runOp, queryCodes_of_codes]
  rfl

/-- R94: a query is answered or refused, as its codes are within their types or not. -/
theorem queryCodes_answers_or_refuses (range : BitVec 3) (function : BitVec 4) (digits : BitVec 16) (s : State) :
    ((HostOp.query range function digits).inType = true → ∃ t, queryCodes range function digits s = .next t) ∧
    ((HostOp.query range function digits).inType = false →
      ∃ why, queryCodes range function digits s = .refused why) := by
  simp only [queryCodes, HostOp.inType]
  cases rangeOfIndex range.toNat with
  | none => simp
  | some r =>
    cases functionOfIndex function.toNat with
    | none => simp
    | some f =>
      cases digitsOfNibbles (digits.toNat / 2 ^ 12) (digits.toNat / 2 ^ 8 % 16) (digits.toNat / 2 ^ 4 % 16)
        (digits.toNat % 16) <;> simp

/-- R56, R94: the codes of a payload read as a Record when its range, function and digits are within their types. -/
theorem recordOfCodes_isSome (range d3 d2 d1 d0 function temp sign battery overflow dc ac auto : Nat) :
    (recordOfCodes [range, d3, d2, d1, d0, function, temp, sign, battery, overflow, dc, ac, auto]).isSome =
      ((rangeOfIndex range).isSome && (functionOfIndex function).isSome && (digitsOfNibbles d0 d1 d2 d3).isSome) := by
  simp only [recordOfCodes]
  cases rangeOfIndex range with
  | none => rfl
  | some r =>
    cases functionOfIndex function with
    | none => rfl
    | some f => cases digitsOfNibbles d0 d1 d2 d3 <;> rfl

/-- R56: where the fields of a payload stand. -/
theorem splitBits_recordWidths (n : Nat) :
    splitBits recordWidths n =
      [n % 8, n / 2 ^ 3 % 16, n / 2 ^ 7 % 16, n / 2 ^ 11 % 16, n / 2 ^ 15 % 16, n / 2 ^ 19 % 16, n / 2 ^ 23 % 2,
       n / 2 ^ 24 % 2, n / 2 ^ 25 % 2, n / 2 ^ 26 % 2, n / 2 ^ 27 % 2, n / 2 ^ 28 % 2, n / 2 ^ 29 % 2] := by
  simp [recordWidths, splitBits, Nat.div_div_eq_div_mul]

/-- R93, R94: a packed query is within its types as the query of its range, function and digits is. -/
theorem queryRecord_inType (w : BitVec 30) :
    (HostOp.queryRecord w).inType =
      (HostOp.query (BitVec.ofNat 3 (w.toNat % 8)) (BitVec.ofNat 4 (w.toNat / 2 ^ 19 % 16))
        (BitVec.ofNat 16 (w.toNat / 2 ^ 3 % 2 ^ 16))).inType := by
  have hrange : (BitVec.ofNat 3 (w.toNat % 8)).toNat = w.toNat % 8 := toNat_ofNat_of_fits (by omega)
  have hfunction : (BitVec.ofNat 4 (w.toNat / 2 ^ 19 % 16)).toNat = w.toNat / 2 ^ 19 % 16 :=
    toNat_ofNat_of_fits (by omega)
  have hdigits : (BitVec.ofNat 16 (w.toNat / 2 ^ 3 % 2 ^ 16)).toNat = w.toNat / 2 ^ 3 % 2 ^ 16 :=
    toNat_ofNat_of_fits (by omega)
  have h0 : w.toNat / 2 ^ 3 % 2 ^ 16 / 2 ^ 12 = w.toNat / 2 ^ 15 % 16 := by omega
  have h1 : w.toNat / 2 ^ 3 % 2 ^ 16 / 2 ^ 8 % 16 = w.toNat / 2 ^ 11 % 16 := by omega
  have h2 : w.toNat / 2 ^ 3 % 2 ^ 16 / 2 ^ 4 % 16 = w.toNat / 2 ^ 7 % 16 := by omega
  have h3 : w.toNat / 2 ^ 3 % 2 ^ 16 % 16 = w.toNat / 2 ^ 3 % 16 := by omega
  simp only [HostOp.inType, unpackRecord, splitBits_recordWidths, recordOfCodes_isSome, hrange, hfunction, hdigits,
    h0, h1, h2, h3]

/-- R115: feeding a byte always completes, by the arm of its class and of `st`. -/
theorem exists_feed_next (b : Byte) (s : State) : ∃ t, feed b s = .next t := by
  cases hb : isData b with
  | false =>
    obtain rfl | rfl := (terminator_iff b).1 hb
    · exact ⟨_, feed_cr s⟩
    · cases hst : s.st with
      | idle => exact ⟨_, feed_lf_idle hst⟩
      | afterCr => exact ⟨_, feed_lf_afterCr hst⟩
  | true =>
    cases hst : s.st with
    | idle => exact ⟨_, feed_data_idle hb hst⟩
    | afterCr => exact ⟨_, feed_data_afterCr hb hst⟩

/-- Settles O30: feeds and resets always complete, a query as its codes say. -/
theorem onlyOutOfTypeQueriesAreRefused : Obligations.OnlyOutOfTypeQueriesAreRefused := by
  intro s op rest hp
  rw [step_cons hp]
  cases op with
  | feed b => exact ⟨fun _ => exists_feed_next b _, nofun⟩
  | reset => exact ⟨fun _ => ⟨_, rfl⟩, nofun⟩
  | query range function digits => exact queryCodes_answers_or_refuses range function digits _
  | queryRecord w =>
    rw [queryRecord_inType]
    exact queryCodes_answers_or_refuses _ _ _ _

end Sys2Proof.Machine
end

section
/-! PROOFS. Fields side by side and cut apart again, and the payloads and words made of them (spec R55 to R59). -/

namespace Sys2Proof.Machine

/-- Codes fit widths when each is below the power of two of its width. -/
abbrev CodesFit (widths codes : List Nat) : Prop := List.Forall₂ (fun w v => v < 2 ^ w) widths codes

/-- Fields that fit take no more bits than their widths together. -/
theorem joinBits_lt {ws vs : List Nat} (h : CodesFit ws vs) : joinBits ws vs < 2 ^ ws.sum := by
  induction h with
  | nil => simp [joinBits]
  | @cons w v ws vs hv _ ih =>
    calc v + 2 ^ w * joinBits ws vs
        < 2 ^ w + 2 ^ w * joinBits ws vs := Nat.add_lt_add_right hv _
      _ = 2 ^ w * (joinBits ws vs + 1) := by ring
      _ ≤ 2 ^ w * 2 ^ ws.sum := Nat.mul_le_mul_left _ ih
      _ = 2 ^ (w :: ws).sum := by rw [List.sum_cons, pow_add]

/-- Fields that fit are found again where they were put. -/
theorem splitBits_joinBits {ws vs : List Nat} (h : CodesFit ws vs) : splitBits ws (joinBits ws vs) = vs := by
  induction h with
  | nil => rfl
  | @cons w v ws vs hv _ ih =>
    rw [joinBits, splitBits, Nat.add_mul_mod_self_left, Nat.mod_eq_of_lt hv,
      Nat.add_mul_div_left _ _ (Nat.two_pow_pos w), Nat.div_eq_of_lt hv, Nat.zero_add, ih]

/-- A number cut into fields is made of them again, up to the bits above the last field. -/
theorem joinBits_splitBits (ws : List Nat) (n : Nat) : joinBits ws (splitBits ws n) = n % 2 ^ ws.sum := by
  induction ws generalizing n with
  | nil => simp [joinBits, Nat.mod_one]
  | cons w ws ih => rw [splitBits, joinBits, ih, List.sum_cons, pow_add, Nat.mod_mul]

theorem tempCode_lt (t : TempUnit) : tempCode t < 2 := by cases t <;> decide

theorem signCode_lt (s : Sign) : signCode s < 2 := by cases s <;> decide

theorem flagCode_lt (x : Bool) : flagCode x < 2 := by cases x <;> decide

/-- R55, R56: every code of a Record fits its field. -/
theorem recordCodes_fit (r : Record) : CodesFit recordWidths (recordCodes r) := by
  have hrange := rangeIndex_lt r.range
  have hfunction := functionIndex_lt r.function
  simp only [CodesFit, recordWidths, recordCodes, List.forall₂_cons, List.forall₂_nil_left_iff, tempCode_lt,
    signCode_lt, flagCode_lt, pow_one, and_true]
  omega

/-- R56: the payload is the fields of the Record side by side. -/
theorem toNat_packRecord (r : Record) : (packRecord r).toNat = joinBits recordWidths (recordCodes r) := by
  rw [packRecord]
  exact toNat_ofNat_of_fits (joinBits_lt (recordCodes_fit r))

/-- R56: the fields of a payload are the codes of the Record it packs. -/
theorem splitBits_packRecord (r : Record) : splitBits recordWidths (packRecord r).toNat = recordCodes r := by
  rw [toNat_packRecord, splitBits_joinBits (recordCodes_fit r)]

/-- R55: the codes of a Record read back as the Record. -/
theorem recordOfCodes_recordCodes (r : Record) : recordOfCodes (recordCodes r) = some r := by
  obtain ⟨range, digits, function, ⟨temp, sign, battery, overflow⟩, ⟨dc, ac, auto⟩⟩ := r
  have htemp : (if tempCode temp = 1 then .celsius else .fahrenheit) = temp := by cases temp <;> rfl
  have hsign : (if signCode sign = 1 then .negative else .positive) = sign := by cases sign <;> rfl
  have hflag : ∀ x : Bool, (flagCode x == 1) = x := by decide
  simp only [recordCodes, recordOfCodes, rangeOfIndex_rangeIndex, functionOfIndex_functionIndex, digitsOfNibbles_val,
    htemp, hsign, hflag]

/-- R20: a code that reads as a range code is its index. -/
theorem eq_rangeIndex_of_rangeOfIndex {n : Nat} {r : RangeCode} (h : rangeOfIndex n = some r) : n = rangeIndex r := by
  unfold rangeOfIndex at h
  split at h <;> cases h <;> rfl

/-- R21: a code that reads as a function code is its index. -/
theorem eq_functionIndex_of_functionOfIndex {n : Nat} {f : FunctionCode} (h : functionOfIndex n = some f) :
    n = functionIndex f := by
  unfold functionOfIndex at h
  split at h <;> cases h <;> rfl

theorem eq_val_of_digitOfNibble {n : Nat} {d : Digit} (h : digitOfNibble n = some d) : n = d.val := by
  unfold digitOfNibble at h
  split at h <;> cases h
  rfl

/-- R22: nibbles that read as a digit group are its digits. -/
theorem eq_vals_of_digitsOfNibbles {n0 n1 n2 n3 : Nat} {d : DigitGroup} (h : digitsOfNibbles n0 n1 n2 n3 = some d) :
    n0 = d.d0.val ∧ n1 = d.d1.val ∧ n2 = d.d2.val ∧ n3 = d.d3.val := by
  unfold digitsOfNibbles at h
  split at h
  case h_1 h0 h1 h2 h3 =>
    cases h
    exact ⟨eq_val_of_digitOfNibble h0, eq_val_of_digitOfNibble h1, eq_val_of_digitOfNibble h2,
      eq_val_of_digitOfNibble h3⟩
  case h_2 => cases h

/-- R55: codes that read as a Record, with one bit for each flag, are the codes of that Record. -/
theorem eq_recordCodes_of_recordOfCodes {range d3 d2 d1 d0 function temp sign battery overflow dc ac auto : Nat}
    {r : Record} (hflags : ∀ x ∈ [temp, sign, battery, overflow, dc, ac, auto], x < 2)
    (h : recordOfCodes [range, d3, d2, d1, d0, function, temp, sign, battery, overflow, dc, ac, auto] = some r) :
    [range, d3, d2, d1, d0, function, temp, sign, battery, overflow, dc, ac, auto] = recordCodes r := by
  have htemp : ∀ x < 2, tempCode (if x = 1 then .celsius else .fahrenheit) = x := by decide
  have hsign : ∀ x < 2, signCode (if x = 1 then .negative else .positive) = x := by decide
  have hflag : ∀ x < 2, flagCode (x == 1) = x := by decide
  simp only [List.forall_mem_cons] at hflags
  obtain ⟨h1, h2, h3, h4, h5, h6, h7, -⟩ := hflags
  simp only [recordOfCodes] at h
  split at h
  case h_1 hrange hfunction hdigits =>
    cases h
    obtain ⟨rfl, rfl, rfl, rfl⟩ := eq_vals_of_digitsOfNibbles hdigits
    simp only [recordCodes, htemp _ h1, hsign _ h2, hflag _ h3, hflag _ h4, hflag _ h5, hflag _ h6, hflag _ h7,
      eq_rangeIndex_of_rangeOfIndex hrange, eq_functionIndex_of_functionOfIndex hfunction]
  case h_2 => cases h

/-- R56: packing loses nothing. -/
theorem unpackRecord_packRecord (r : Record) : unpackRecord (packRecord r) = some r := by
  rw [unpackRecord, splitBits_packRecord, recordOfCodes_recordCodes]

theorem packRecord_injective {r r' : Record} (h : packRecord r = packRecord r') : r = r' := by
  have hr := unpackRecord_packRecord r
  rwa [h, unpackRecord_packRecord, Option.some.injEq, eq_comm] at hr

/-- R56: a payload that reads back as a Record has the codes of the Record for its fields. -/
theorem splitBits_of_unpackRecord {w : BitVec 30} {r : Record} (h : unpackRecord w = some r) :
    splitBits recordWidths w.toNat = recordCodes r := by
  rw [unpackRecord, splitBits_recordWidths] at h
  rw [splitBits_recordWidths]
  refine eq_recordCodes_of_recordOfCodes (fun x hx => ?_) h
  simp only [List.mem_cons, List.not_mem_nil, or_false] at hx
  omega

/-- R56: only the packing of a Record reads back as it. -/
theorem packRecord_of_unpackRecord {w : BitVec 30} {r : Record} (h : unpackRecord w = some r) : packRecord r = w := by
  refine BitVec.eq_of_toNat_eq ?_
  calc (packRecord r).toNat
      = joinBits recordWidths (recordCodes r) := toNat_packRecord r
    _ = joinBits recordWidths (splitBits recordWidths w.toNat) := by rw [splitBits_of_unpackRecord h]
    _ = w.toNat % 2 ^ recordWidths.sum := joinBits_splitBits _ _
    _ = w.toNat := Nat.mod_eq_of_lt w.isLt

/-- R56, R55: the code of each field at its bits. -/
theorem packRecord_fields (r : Record) :
    (packRecord r).toNat % 8 = rangeIndex r.range ∧ (packRecord r).toNat / 2 ^ 3 % 16 = r.digits.d3.val ∧
    (packRecord r).toNat / 2 ^ 7 % 16 = r.digits.d2.val ∧ (packRecord r).toNat / 2 ^ 11 % 16 = r.digits.d1.val ∧
    (packRecord r).toNat / 2 ^ 15 % 16 = r.digits.d0.val ∧
    (packRecord r).toNat / 2 ^ 19 % 16 = functionIndex r.function ∧
    (packRecord r).toNat / 2 ^ 23 % 2 = tempCode r.status.tempUnit ∧
    (packRecord r).toNat / 2 ^ 24 % 2 = signCode r.status.sign ∧
    (packRecord r).toNat / 2 ^ 25 % 2 = flagCode r.status.batteryLow ∧
    (packRecord r).toNat / 2 ^ 26 % 2 = flagCode r.status.overflow ∧
    (packRecord r).toNat / 2 ^ 27 % 2 = flagCode r.option.dc ∧
    (packRecord r).toNat / 2 ^ 28 % 2 = flagCode r.option.ac ∧
    (packRecord r).toNat / 2 ^ 29 % 2 = flagCode r.option.auto := by
  have hfields := splitBits_packRecord r
  rw [splitBits_recordWidths, recordCodes] at hfields
  simpa only [List.cons.injEq, and_true] using hfields

/-- R10: a bit of a payload, as arithmetic on its value. -/
theorem getLsbD_eq_true_iff (w : BitVec 30) (i : Nat) : w.getLsbD i = true ↔ w.toNat / 2 ^ i % 2 = 1 := by
  rw [BitVec.getLsbD, Nat.testBit_eq_decide_div_mod_eq, decide_eq_true_iff]

/-- R56: a bit that is the code of a flag is the flag. -/
theorem getLsbD_of_flagCode {w : BitVec 30} {i : Nat} {x : Bool} (h : w.toNat / 2 ^ i % 2 = flagCode x) :
    w.getLsbD i = x := by
  rw [Bool.eq_iff_iff, getLsbD_eq_true_iff, h]
  cases x <;> decide

/-- Settles O31: the payload is cut into the codes of the Record, field by field; the codes read back as the Record, and
the fields of a payload that reads back are the codes of what it reads as. -/
theorem recordPackingRoundTrips : Obligations.RecordPackingRoundTrips := by
  refine ⟨fun r => ?_, unpackRecord_packRecord, fun w r => packRecord_of_unpackRecord⟩
  obtain ⟨hrange, hd3, hd2, hd1, hd0, hfunction, htemp, hsign, hbattery, hoverflow, hdc, hac, hauto⟩ :=
    packRecord_fields r
  refine ⟨hrange, hd3, hd2, hd1, hd0, hfunction, ?_, ?_, getLsbD_of_flagCode hbattery, getLsbD_of_flagCode hoverflow,
    getLsbD_of_flagCode hdc, getLsbD_of_flagCode hac, getLsbD_of_flagCode hauto⟩
  · rw [getLsbD_eq_true_iff, htemp]
    cases r.status.tempUnit <;> decide
  · rw [getLsbD_eq_true_iff, hsign]
    cases r.status.sign <;> decide

/-- Settles O29: the codes a packed query presents are the range, function and digits of the Record. -/
theorem packedQueryReadsNoFlag : Obligations.PackedQueryReadsNoFlag := by
  intro s rest r hp
  obtain ⟨hrange, hd3, hd2, hd1, hd0, hfunction, -⟩ := packRecord_fields r
  have hdigits : (packRecord r).toNat / 2 ^ 3 % 2 ^ 16 =
      r.digits.d0.val * 2 ^ 12 + r.digits.d1.val * 2 ^ 8 + r.digits.d2.val * 2 ^ 4 + r.digits.d3.val := by
    omega
  rw [step_cons hp, runOp, queryPacked, hrange, hfunction, hdigits, ← digitsWord, queryCodes_of_codes]
  rfl

/-- R111: there are four kinds of error. -/
theorem errorKind_lt (e : FrameError) : errorKind e < 4 := by cases e <;> simp [errorKind]

/-- R57: an error payload is its kind code and, from bit 2, the length or the byte. -/
theorem toNat_packError (e : FrameError) : (packError e).toNat = errorKind e + 4 * (errorInfo e).toNat := by
  have hkind := errorKind_lt e
  have hinfo := (errorInfo e).isLt
  rw [packError, BitVec.toNat_ofNat]
  simp only [joinBits]
  omega

theorem toNat_payload_err (e : FrameError) :
    (packOutcome (.err e)).payload.toNat = errorKind e + 4 * (errorInfo e).toNat :=
  toNat_packError e

/-- R118: a length the block produces fits its 8 bits. -/
theorem errorInfo_lengthError_toNat {n : Nat} (h : lengthInRange n) : (errorInfo (.lengthError n)).toNat = n := by
  rw [errorInfo]
  exact toNat_ofNat_of_fits (by omega)

/-- R57, R118: the kind and the value carried tell the errors of the block apart. -/
theorem frameError_ext {e e' : FrameError} (hlen : ∀ n, e = .lengthError n → lengthInRange n)
    (hlen' : ∀ n, e' = .lengthError n → lengthInRange n) (hkind : errorKind e = errorKind e')
    (hinfo : errorInfo e = errorInfo e') : e = e' := by
  cases e with
  | lengthError n =>
    cases e' with
    | lengthError n' =>
      rw [← errorInfo_lengthError_toNat (hlen n rfl), hinfo, errorInfo_lengthError_toNat (hlen' n' rfl)]
    | invalidRange | invalidFunction | invalidDigit => cases hkind
  | invalidRange b =>
    cases e' with
    | invalidRange b' => exact congrArg FrameError.invalidRange hinfo
    | lengthError | invalidFunction | invalidDigit => cases hkind
  | invalidFunction b =>
    cases e' with
    | invalidFunction b' => exact congrArg FrameError.invalidFunction hinfo
    | lengthError | invalidRange | invalidDigit => cases hkind
  | invalidDigit b =>
    cases e' with
    | invalidDigit b' => exact congrArg FrameError.invalidDigit hinfo
    | lengthError | invalidRange | invalidFunction => cases hkind

/-- R57: the errors of the block have different payloads. -/
theorem packError_injective {e e' : FrameError} (hlen : ∀ n, e = .lengthError n → lengthInRange n)
    (hlen' : ∀ n, e' = .lengthError n → lengthInRange n) (h : packError e = packError e') : e = e' := by
  have hkind := errorKind_lt e
  have hkind' := errorKind_lt e'
  have hnat := congrArg BitVec.toNat h
  rw [toNat_packError, toNat_packError] at hnat
  exact frameError_ext hlen hlen' (by omega) (BitVec.eq_of_toNat_eq (by omega))

/-- Settles O32: R59 tells the three sorts of outcome apart by two bits, and within a sort the payload does. -/
theorem outcomeWordsAreOneToOne : Obligations.OutcomeWordsAreOneToOne := by
  refine ⟨rfl, fun r => rfl, fun e => ⟨rfl, rfl⟩, fun n hn => ?_, fun b => ?_, fun b => ?_, fun b => ?_,
    fun o o' ho ho' h => ?_⟩
  · rw [toNat_payload_err, errorInfo_lengthError_toNat hn, errorKind]
  · rw [toNat_payload_err, errorInfo, errorKind]
  · rw [toNat_payload_err, errorInfo, errorKind]
  · rw [toNat_payload_err, errorInfo, errorKind]
  · cases o with
    | none =>
      cases o' with
      | none => rfl
      | ok | err => simp [packOutcome] at h
    | ok r =>
      cases o' with
      | ok r' =>
        simp only [packOutcome, OutcomeWord.mk.injEq, true_and] at h
        rw [packRecord_injective h]
      | none | err => simp [packOutcome] at h
    | err e =>
      cases o' with
      | err e' =>
        simp only [packOutcome, OutcomeWord.mk.injEq, true_and] at h
        rw [packError_injective (fun n hn => ho n (by rw [hn])) (fun n hn => ho' n (by rw [hn])) h]
      | none | ok => simp [packOutcome] at h

/-- Settles O33: the length of a buffer in its canonical form fits the 4-bit counter. -/
theorem bufferRegistersShowTheBuffer : Obligations.BufferRegistersShowTheBuffer := by
  intro s hi
  have hle : s.buf.length ≤ 9 := hi.1
  have hcounter : (lengthCounter s).toNat = s.buf.length :=
    toNat_ofNat_of_fits (hle.trans_lt (by decide))
  have hidle : stCode s.st = 0#1 ↔ s.st = .idle := by cases s.st <;> decide
  have hafterCr : stCode s.st = 1#1 ↔ s.st = .afterCr := by cases s.st <;> decide
  refine ⟨hidle, hafterCr, hcounter, fun i => ⟨rfl, ?_⟩⟩
  rw [hcounter, bufferSlot, isSome_getElem?]

/-- Settles O60: each enumeration in the order of its codes. -/
theorem enumerationCodesAreTheListedOnes : Obligations.EnumerationCodesAreTheListedOnes :=
  ⟨rfl, rfl, rfl, rfl, rfl, rfl, rfl⟩

end Sys2Proof.Machine
end

section
/-! PROOFS. The digit formatter: the numbers its texts read as, their characters and their lengths (spec R81 to R84);
the text on the resolve port (spec R58). -/

namespace Sys2Proof.Machine

/-- R84: the character of a digit stands at its value from 0x30. -/
theorem toNat_digitChar : ∀ n < 10, (digitChar n).toNat = 0x30 + n := by decide

theorem isDecimalChar_digitChar {n : Nat} (h : n < 10) : isDecimalChar (digitChar n) = true := by
  simp only [isDecimalChar, toNat_digitChar n h, Bool.and_eq_true, decide_eq_true_eq]
  omega

/-- Enough fuel is as good as more. -/
theorem decimalFuel_congr {fuel fuel' n : Nat} (h : n < fuel) (h' : n < fuel') :
    decimalFuel fuel n = decimalFuel fuel' n := by
  induction fuel generalizing fuel' n with
  | zero => omega
  | succ fuel ih =>
    obtain ⟨fuel', rfl⟩ : ∃ k, fuel' = k + 1 := ⟨fuel' - 1, by omega⟩
    rw [decimalFuel, decimalFuel]
    split
    · rfl
    · have hfuel : n / 10 < fuel := by omega
      have hfuel' : n / 10 < fuel' := by omega
      rw [ih hfuel hfuel']

theorem decimal_of_lt_ten {n : Nat} (h : n < 10) : decimal n = [digitChar n] := by
  rw [decimal, decimalFuel, if_pos h]

theorem decimal_of_ten_le {n : Nat} (h : 10 ≤ n) : decimal n = decimal (n / 10) ++ [digitChar (n % 10)] := by
  have hfuel : n / 10 < n := by omega
  rw [decimal, decimalFuel, if_neg (by omega), decimal, decimalFuel_congr hfuel (Nat.lt_succ_self _)]

/-- A property of decimal texts, digit by digit from the most significant. -/
theorem decimal_induction {motive : Nat → List Char → Prop} (digit : ∀ n < 10, motive n [digitChar n])
    (snoc : ∀ n ≥ 10, motive (n / 10) (decimal (n / 10)) → motive n (decimal (n / 10) ++ [digitChar (n % 10)]))
    (n : Nat) : motive n (decimal n) := by
  induction n using Nat.strong_induction_on with
  | _ n ih =>
    rcases Nat.lt_or_ge n 10 with hlt | hge
    · rw [decimal_of_lt_ten hlt]
      exact digit n hlt
    · rw [decimal_of_ten_le hge]
      exact snoc n hge (ih (n / 10) (by omega))

theorem readDecimal_snoc (cs : List Char) (c : Char) :
    readDecimal (cs ++ [c]) = 10 * readDecimal cs + (c.toNat - 0x30) := by
  rw [readDecimal, List.foldl_append]
  rfl

/-- R83: the text of a number reads as the number. -/
theorem readDecimal_decimal (n : Nat) : readDecimal (decimal n) = n := by
  refine decimal_induction (motive := fun n cs => readDecimal cs = n) (fun n hn => ?_) (fun n _ ih => ?_) n
  · rw [← List.nil_append [digitChar n], readDecimal_snoc, toNat_digitChar n hn, readDecimal, List.foldl_nil]
    omega
  · rw [readDecimal_snoc, ih, toNat_digitChar _ (by omega)]
    omega

theorem isDecimalChar_of_mem_decimal (n : Nat) : ∀ c ∈ decimal n, isDecimalChar c = true := by
  refine decimal_induction (motive := fun _ cs => ∀ c ∈ cs, isDecimalChar c = true) (fun n hn c hc => ?_)
    (fun n _ ih c hc => ?_) n
  · rw [List.mem_singleton.1 hc]
    exact isDecimalChar_digitChar hn
  · rcases List.mem_append.1 hc with hc | hc
    · exact ih c hc
    · rw [List.mem_singleton.1 hc]
      exact isDecimalChar_digitChar (by omega)

theorem decimal_ne_nil (n : Nat) : decimal n ≠ [] :=
  decimal_induction (motive := fun _ cs => cs ≠ []) (fun _ _ => List.cons_ne_nil _ _)
    (fun _ _ _ => List.append_ne_nil_of_right_ne_nil _ (List.cons_ne_nil _ _)) n

/-- R83: only the text of 0 begins with `'0'`. -/
theorem eq_zero_of_decimal_head {n : Nat} (h : (decimal n).head? = some '0') : n = 0 := by
  revert h
  refine decimal_induction (motive := fun n cs => cs.head? = some '0' → n = 0) (fun n hn h => ?_)
    (fun n hn ih h => ?_) n
  · have hchar : (digitChar n).toNat = '0'.toNat := congrArg Char.toNat (Option.some.inj h)
    rw [toNat_digitChar n hn] at hchar
    exact Nat.add_left_cancel hchar
  · rw [List.head?_append_of_ne_nil _ (decimal_ne_nil _)] at h
    have := ih h
    omega

/-- R83: a number below a power of ten has at most as many digits as the power has zeros. -/
theorem length_decimal_le {k n : Nat} (hk : 0 < k) (hn : n < 10 ^ k) : (decimal n).length ≤ k := by
  revert k
  refine decimal_induction (motive := fun n cs => ∀ {k}, 0 < k → n < 10 ^ k → cs.length ≤ k) (fun n _ k hk _ => hk)
    (fun n hn ih k hk hlt => ?_) n
  obtain ⟨k, rfl⟩ : ∃ j, k = j + 1 := ⟨k - 1, by omega⟩
  have hk0 : 0 < k := by
    by_contra h0
    rw [show k = 0 by omega] at hlt
    omega
  have hlt' : n / 10 < 10 ^ k := by
    rw [pow_succ] at hlt
    omega
  rw [List.length_append, List.length_singleton]
  exact Nat.add_le_add_right (ih hk0 hlt') 1

theorem digitsValue_snoc (ds : List Digit) (d : Digit) : digitsValue (ds ++ [d]) = 10 * digitsValue ds + d.val := by
  rw [digitsValue, List.foldl_append]
  rfl

/-- R84: the value of two runs one after the other. -/
theorem digitsValue_append (xs ys : List Digit) :
    digitsValue (xs ++ ys) = digitsValue xs * 10 ^ ys.length + digitsValue ys := by
  induction ys using List.reverseRecOn with
  | nil => simp [digitsValue]
  | append_singleton ys d ih =>
    rw [← List.append_assoc, digitsValue_snoc, ih, digitsValue_snoc, List.length_append, List.length_singleton,
      pow_succ]
    ring

theorem digitsValue_lt (ds : List Digit) : digitsValue ds < 10 ^ ds.length := by
  induction ds using List.reverseRecOn with
  | nil => simp [digitsValue]
  | append_singleton ds d ih =>
    have hd := d.isLt
    rw [digitsValue_snoc, List.length_append, List.length_singleton, pow_succ]
    omega

/-- R84: a run of digits written out reads as its value, zeros included. -/
theorem readDecimal_map_digitChar (ds : List Digit) :
    readDecimal (ds.map fun x => digitChar x.val) = digitsValue ds := by
  induction ds using List.reverseRecOn with
  | nil => rfl
  | append_singleton ds d ih =>
    rw [List.map_append, List.map_singleton, readDecimal_snoc, ih, digitsValue_snoc, toNat_digitChar _ d.isLt,
      Nat.add_sub_cancel_left]

/-- R22: the magnitude is the value of the four digits. -/
theorem digitsValue_digitList (d : DigitGroup) : digitsValue (digitList d) = magnitude d := by
  simp only [digitsValue, digitList, List.foldl_cons, List.foldl_nil, magnitude]
  omega

/-- R82: the part of a formatted text before the point. -/
def integerText (p : Placement) (d : DigitGroup) : List Char :=
  decimal (digitsValue ((digitList d).take (4 - fractionDigits p)))

/-- R82: the part of a formatted text behind the point. -/
def fractionText (p : Placement) (d : DigitGroup) : List Char :=
  ((digitList d).drop (4 - fractionDigits p)).map fun x => digitChar x.val

theorem fractionDigits_lt (p : Placement) : fractionDigits p < 4 := by cases p <;> decide

/-- R81, R82: a formatted text is its two parts, with the point between them unless the placement is Zero. -/
theorem formatDigits_eq (p : Placement) (d : DigitGroup) :
    formatDigits p d = integerText p d ++ (if p = .zero then [] else '.' :: fractionText p d) := by
  cases p with
  | zero => exact (List.append_nil _).symm
  | minus1 | minus2 | minus3 => rfl

theorem length_fractionText (p : Placement) (d : DigitGroup) : (fractionText p d).length = fractionDigits p := by
  have hk := fractionDigits_lt p
  have hlen : (digitList d).length = 4 := rfl
  rw [fractionText, List.length_map, List.length_drop, hlen]
  omega

theorem length_integerText_le (p : Placement) (d : DigitGroup) : (integerText p d).length ≤ 4 - fractionDigits p := by
  have hk := fractionDigits_lt p
  have hlen : ((digitList d).take (4 - fractionDigits p)).length = 4 - fractionDigits p :=
    List.length_take_of_le (Nat.sub_le _ _)
  have hvalue := digitsValue_lt ((digitList d).take (4 - fractionDigits p))
  rw [hlen] at hvalue
  exact length_decimal_le (by omega) hvalue

theorem isDecimalChar_of_mem_fractionText {p : Placement} {d : DigitGroup} {c : Char} (h : c ∈ fractionText p d) :
    isDecimalChar c = true := by
  obtain ⟨x, -, rfl⟩ := List.mem_map.1 h
  exact isDecimalChar_digitChar x.isLt

/-- R81: the two parts read as one number are the magnitude. -/
theorem readDecimal_parts (p : Placement) (d : DigitGroup) :
    readDecimal (integerText p d) * 10 ^ fractionDigits p + readDecimal (fractionText p d) = magnitude d := by
  have hlen := length_fractionText p d
  rw [fractionText, List.length_map] at hlen
  have hsplit := digitsValue_append ((digitList d).take (4 - fractionDigits p))
    ((digitList d).drop (4 - fractionDigits p))
  rw [List.take_append_drop, digitsValue_digitList, hlen] at hsplit
  rw [integerText, fractionText, readDecimal_decimal, readDecimal_map_digitChar, hsplit]

/-- R81: a formatted text has at most four digits and the point. -/
theorem length_formatDigits_le (p : Placement) (d : DigitGroup) : (formatDigits p d).length ≤ 5 := by
  have hint := length_integerText_le p d
  have hfrac := length_fractionText p d
  rw [formatDigits_eq, List.length_append]
  split
  · rw [List.length_nil]
    omega
  · rw [List.length_cons]
    have hk := fractionDigits_lt p
    omega

theorem length_formatDigits_pos (p : Placement) (d : DigitGroup) : 1 ≤ (formatDigits p d).length := by
  have hpos := List.length_pos_of_ne_nil (decimal_ne_nil (digitsValue ((digitList d).take (4 - fractionDigits p))))
  rw [formatDigits_eq, List.length_append]
  exact Nat.le_add_right_of_le hpos

/-- Settles O23: the integer part is the decimal text of the leading digits' value, the fraction is the other digits
written out, and the two values together are the magnitude. -/
theorem formattedTextIsTheScaledMagnitude : Obligations.FormattedTextIsTheScaledMagnitude := by
  intro p d
  refine ⟨integerText p d, fractionText p d, formatDigits_eq p d, length_fractionText p d, decimal_ne_nil _, ?_, ?_,
    readDecimal_parts p d, length_formatDigits_pos p d, length_formatDigits_le p d⟩
  · intro c hc
    rcases List.mem_append.1 hc with hc | hc
    · exact isDecimalChar_of_mem_decimal _ c hc
    · exact isDecimalChar_of_mem_fractionText hc
  · intro hhead
    rw [integerText, eq_zero_of_decimal_head hhead]
    rfl

/-- R84: a formatted text has decimal digits and the point only. -/
theorem char_of_mem_formatDigits {p : Placement} {d : DigitGroup} {c : Char} (h : c ∈ formatDigits p d) :
    isDecimalChar c = true ∨ c = '.' := by
  rw [formatDigits_eq, List.mem_append] at h
  rcases h with h | h
  · exact .inl (isDecimalChar_of_mem_decimal _ c h)
  · split at h
    · cases h
    · rcases List.mem_cons.1 h with rfl | h
      · exact .inr rfl
      · exact .inl (isDecimalChar_of_mem_fractionText h)

theorem isDecimalChar_iff (c : Char) : isDecimalChar c = true ↔ 0x30 ≤ c.toNat ∧ c.toNat ≤ 0x39 := by
  simp [isDecimalChar]

theorem toNat_asciiByte {c : Char} (h : c.toNat < 256) : (asciiByte c).toNat = c.toNat :=
  toNat_ofNat_of_fits h

/-- R84: the characters of a formatted text are ASCII. -/
theorem toNat_lt_of_mem_formatDigits {p : Placement} {d : DigitGroup} {c : Char} (h : c ∈ formatDigits p d) :
    c.toNat < 256 := by
  rcases char_of_mem_formatDigits h with hc | rfl
  · have hbounds := (isDecimalChar_iff c).1 hc
    omega
  · decide

theorem scaleCode_lt (x : MetricScale) : scaleCode x < 8 := by cases x <;> decide

theorem baseCode_lt (x : BaseUnit) : baseCode x < 8 := by cases x <;> decide

/-- Settles O58: every code fits its field, and every character of the text is its byte. -/
theorem resolvePortShowsTheReading : Obligations.ResolvePortShowsTheReading := by
  intro p u d
  have hk := fractionDigits_lt p
  have hlen := length_formatDigits_le p d
  have hpos := length_formatDigits_pos p d
  have hplacement : (BitVec.ofNat 2 (fractionDigits p)).toNat = fractionDigits p :=
    toNat_ofNat_of_fits hk
  have hscale : (BitVec.ofNat 3 (scaleCode u.scale)).toNat = scaleCode u.scale :=
    toNat_ofNat_of_fits (scaleCode_lt _)
  have hbase : (BitVec.ofNat 3 (baseCode u.base)).toNat = baseCode u.base :=
    toNat_ofNat_of_fits (baseCode_lt _)
  have htext : ((formatDigits p d).map asciiByte).map BitVec.toNat = (formatDigits p d).map Char.toNat := by
    rw [List.map_map]
    exact List.map_congr_left fun c hc => toNat_asciiByte (toNat_lt_of_mem_formatDigits hc)
  have htextLen : (BitVec.ofNat 3 (formatDigits p d).length).toNat = ((formatDigits p d).map asciiByte).length := by
    rw [List.length_map]
    exact toNat_ofNat_of_fits (hlen.trans_lt (by decide))
  have hbytes : ∀ b ∈ (formatDigits p d).map asciiByte, (0x30 ≤ b.toNat ∧ b.toNat ≤ 0x39) ∨ b = 0x2E#8 := by
    intro b hb
    obtain ⟨c, hc, rfl⟩ := List.mem_map.1 hb
    rw [toNat_asciiByte (toNat_lt_of_mem_formatDigits hc)]
    rcases char_of_mem_formatDigits hc with hdec | rfl
    · exact .inl ((isDecimalChar_iff c).1 hdec)
    · exact .inr rfl
  have hmap : ((formatDigits p d).map asciiByte).length = (formatDigits p d).length := List.length_map _
  exact ⟨rfl, hplacement, hscale, hbase, htext, htextLen, hmap ▸ hpos, hmap ▸ hlen, hbytes, rfl⟩

end Sys2Proof.Machine
end

section
/-! PROOFS. Streams of bytes: what they depend on, the machine's run over them, and chunks (spec R104, R105, R133). -/

namespace Sys2Proof.Machine

/-- R98, R99: an accumulation reads `st` and `buf` only, and leaves the resolve port, the field output and the host's
side as they are. -/
theorem accumulate_of_registers_eq {b : Byte} {s s' : State} (hst : s.st = s'.st) (hbuf : s.buf = s'.buf) :
    accumulate b s' =
      { accumulate b s with reply := s'.reply, field := s'.field, pending := s'.pending } := by
  by_cases hroom : s.buf.length < 9
  · rw [accumulate_room hroom, accumulate_room (hbuf ▸ hroom), hst, hbuf]
  · have hfull := not_lt.1 hroom
    rw [accumulate_over hfull, accumulate_over (hbuf ▸ hfull), hst, hbuf]

/-- R133: a feed reads `st` and `buf` only, and leaves the resolve port, the field output and the host's side as they
are. -/
theorem feed_of_registers_eq {b : Byte} {s s' t : State} (hst : s.st = s'.st) (hbuf : s.buf = s'.buf)
    (h : feed b s = .next t) :
    feed b s' = .next { t with reply := s'.reply, field := s'.field, pending := s'.pending } := by
  rcases feed_cases h with ⟨rfl, rfl⟩ | ⟨rfl, hs, rfl⟩ | ⟨rfl, hs, rfl⟩ | ⟨hb, hs, rfl⟩ | ⟨hb, hs, rfl⟩
  · rw [feed_cr, boundary_eq, boundary_eq, hbuf]
  · rw [feed_lf_idle (hst ▸ hs), boundary_eq, boundary_eq, hbuf]
  · rw [feed_lf_afterCr (hst ▸ hs)]
  · rw [feed_data_idle hb (hst ▸ hs), accumulate_of_registers_eq hst hbuf]
  · rw [feed_data_afterCr hb (hst ▸ hs), hbuf]

/-- Settles O50: byte by byte, two states with equal registers give one outcome and equal registers. -/
theorem streamsDependOnTheRegistersAlone : Obligations.StreamsDependOnTheRegistersAlone := by
  intro bs
  induction bs with
  | nil => exact fun s s' hst hbuf => ⟨rfl, hst, hbuf⟩
  | cons b bs ih =>
    intro s s' hst hbuf
    obtain ⟨t, ht⟩ := exists_feed_next b s
    obtain ⟨hout, hst', hbuf'⟩ := ih t { t with reply := s'.reply, field := s'.field, pending := s'.pending } rfl rfl
    rw [feedAll_cons ht, feedAll_cons (feed_of_registers_eq hst hbuf ht), hout]
    exact ⟨rfl, hst', hbuf'⟩

/-- A run of one step more begins with the step. -/
theorem run_succ (M : Host.Core) {s t : M.State} (h : M.step s = .next t) (k : Nat) : M.run (k + 1) s = M.run k t := by
  rw [Host.Core.run, h]

/-- R104, R109: the machine's run over presented bytes follows `feed_all` from any state with the same registers. -/
theorem run_of_presented_stream (bs : List Byte) :
    ∀ s s0 : State, s.pending = bs.map HostOp.feed → s0.st = s.st → s0.buf = s.buf →
      outcomesOfRun bs.length s = (feedAll bs s0).2 ∧
      ∃ t, Host.Core.run Sys2Proof.core bs.length s = .next t ∧
        t.st = (feedAll bs s0).1.st ∧ t.buf = (feedAll bs s0).1.buf ∧ t.pending = [] := by
  induction bs with
  | nil => exact fun s s0 hp hst hbuf => ⟨rfl, s, rfl, hst.symm, hbuf.symm, hp⟩
  | cons b bs ih =>
    intro s s0 hp hst hbuf
    obtain ⟨t0, ht0⟩ := exists_feed_next b s0
    have hstep : step s = .next { t0 with reply := .noQuery, field := none, pending := bs.map HostOp.feed } :=
      calc step s
          = feed b (s.quiet.withPending (bs.map HostOp.feed)) := step_cons hp
        _ = .next { t0 with reply := .noQuery, field := none, pending := bs.map HostOp.feed } :=
          feed_of_registers_eq hst hbuf ht0
    obtain ⟨hout, t, hrun, hregs⟩ :=
      ih { t0 with reply := .noQuery, field := none, pending := bs.map HostOp.feed } t0 rfl rfl rfl
    rw [feedAll_cons ht0]
    refine ⟨?_, t, ?_, hregs⟩
    · simp only [List.length_cons, outcomesOfRun, hstep, hout]
    · exact (run_succ Sys2Proof.core hstep bs.length).trans hrun

/-- Settles O51: presenting the stream where nothing was pending leaves exactly its bytes to be taken, one per step. -/
theorem runOfAStreamIsFeedAll : Obligations.RunOfAStreamIsFeedAll := by
  intro bs s hp
  refine run_of_presented_stream bs (s.presentStream bs) s ?_ rfl rfl
  rw [State.presentStream, State.withPending_pending, hp, List.nil_append]

/-- R104: feeding one stream and then another is feeding them joined. -/
theorem feedAll_append (xs ys : List Byte) (s : State) :
    feedAll (xs ++ ys) s =
      ((feedAll ys (feedAll xs s).1).1, (feedAll xs s).2 ++ (feedAll ys (feedAll xs s).1).2) := by
  induction xs generalizing s with
  | nil => rfl
  | cons x xs ih =>
    obtain ⟨t, ht⟩ := exists_feed_next x s
    rw [List.cons_append, feedAll_cons ht, feedAll_cons ht, ih]
    split <;> rfl

/-- Settles O52: chunk by chunk, with `feed_all` of two streams as that of the joined stream. -/
theorem chunksDoNotMatter : Obligations.ChunksDoNotMatter := by
  intro chunks
  induction chunks with
  | nil => exact fun s => rfl
  | cons c cs ih =>
    intro s
    rw [List.flatten_cons, feedAll_append, feedChunks, ih]

end Sys2Proof.Machine
end

section
/-! PROOFS. Runs of data bytes up to a terminator (spec R96 to R103, R107, R108, R110). -/

namespace Sys2Proof.Machine

theorem feedAll_singleton {b : Byte} {s t : State} (h : feed b s = .next t) :
    feedAll [b] s = (t, if t.out = .none then [] else [t.out]) :=
  feedAll_cons h

/-- R96, R97: a terminator in `Idle` emits the decode of the buffer and clears it. -/
theorem feedAll_terminator_idle {t : Byte} (s : State) (ht : isData t = false) (hst : s.st = .idle) :
    feedAll [t] s =
      ({ s with st := if t = CR then .afterCr else .idle, buf := [],
                out := outcomeOf (decodeFrame Config.funcTable s.buf) },
        [outcomeOf (decodeFrame Config.funcTable s.buf)]) := by
  rw [feedAll_singleton (feed_terminator_idle ht hst), if_neg (boundary_out_ne_none _ _), boundary_eq]

/-- R98, R99, R110: data bytes from an empty buffer in `Idle` leave the last nine of them in the buffer, with one
overflow error for each byte that pushed another out. -/
theorem feedAll_data_idle {s : State} {xs : List Byte} (hst : s.st = .idle) (hbuf : s.buf = [])
    (hxs : ∀ b ∈ xs, isData b = true) :
    ∃ o, feedAll xs s =
      ({ s with out := o, buf := xs.drop (xs.length - 9) },
        List.replicate (xs.length - 9) (.err (.lengthError 10))) := by
  induction xs using List.reverseRecOn with
  | nil =>
    obtain ⟨st, buf, out, reply, field, pending⟩ := s
    obtain rfl : buf = [] := hbuf
    exact ⟨out, rfl⟩
  | append_singleton xs b ih =>
    obtain ⟨o, ho⟩ := ih fun c hc => hxs c (List.mem_append_left _ hc)
    have hb : isData b = true := hxs b (by simp)
    have hfeed : feed b (feedAll xs s).1 = .next (accumulate b (feedAll xs s).1) :=
      feed_data_idle hb (by rw [ho]; exact hst)
    rw [feedAll_append, feedAll_singleton hfeed, ho, List.length_append, List.length_singleton]
    rcases Nat.lt_or_ge xs.length 9 with hroom | hfull
    · have h0 : xs.length - 9 = 0 := by omega
      have h1 : xs.length + 1 - 9 = 0 := by omega
      rw [h0, h1, List.drop_zero, List.drop_zero, accumulate_room hroom]
      exact ⟨_, rfl⟩
    · have hlen : (xs.drop (xs.length - 9)).length = 9 := by
        rw [List.length_drop]
        omega
      have hsub : xs.length + 1 - 9 = xs.length - 9 + 1 := by omega
      have htail : (xs.drop (xs.length - 9)).tail ++ [b] = (xs ++ [b]).drop (xs.length - 9 + 1) := by
        rw [List.tail_drop, List.drop_append_of_le_length (by omega)]
      rw [accumulate_full hlen, htail, hsub, List.replicate_succ']
      exact ⟨_, rfl⟩

/-- R110: such a run and a terminator. -/
theorem feedAll_data_terminator {s : State} {xs : List Byte} {t : Byte} (hst : s.st = .idle) (hbuf : s.buf = [])
    (hxs : ∀ b ∈ xs, isData b = true) (ht : isData t = false) :
    feedAll (xs ++ [t]) s =
      ({ s with st := if t = CR then .afterCr else .idle, buf := [],
                out := outcomeOf (decodeFrame Config.funcTable (xs.drop (xs.length - 9))) },
        List.replicate (xs.length - 9) (.err (.lengthError 10)) ++
          [outcomeOf (decodeFrame Config.funcTable (xs.drop (xs.length - 9)))]) := by
  obtain ⟨o, ho⟩ := feedAll_data_idle hst hbuf hxs
  have hend := feedAll_terminator_idle { s with out := o, buf := xs.drop (xs.length - 9) } ht hst
  rw [feedAll_append, ho, hend]

/-- Settles O55: the outcomes of the run and the terminator. -/
theorem longRunsSlideTheWindow : Obligations.LongRunsSlideTheWindow := by
  intro s xs t hst hbuf hxs ht
  rw [feedAll_data_terminator hst hbuf hxs ht]

/-- R108: nine data bytes are all still in the buffer when the terminator comes. -/
theorem feedAll_nine_terminator (s : State) {xs : List Byte} {t : Byte} (hst : s.st = .idle) (hbuf : s.buf = [])
    (hlen : xs.length = 9) (hxs : ∀ b ∈ xs, isData b = true) (ht : isData t = false) :
    feedAll (xs ++ [t]) s =
      ({ s with st := if t = CR then .afterCr else .idle, buf := [],
                out := outcomeOf (decodeFrame Config.funcTable xs) },
        [outcomeOf (decodeFrame Config.funcTable xs)]) := by
  have hrun := feedAll_data_terminator hst hbuf hxs ht
  rwa [hlen, Nat.sub_self, List.drop_zero, List.replicate_zero, List.nil_append] at hrun

/-- Settles O54: CR and LF each end the payload, and an LF behind the CR is swallowed (R101). -/
theorem terminatorsAreEquivalent : Obligations.TerminatorsAreEquivalent := by
  intro s payload hst hbuf hlen hpayload
  have hcr := feedAll_nine_terminator s hst hbuf hlen hpayload isData_cr
  have hlf := feedAll_nine_terminator s hst hbuf hlen hpayload isData_lf
  refine ⟨?_, hcr, hlf⟩
  rw [show payload ++ [CR, LF] = (payload ++ [CR]) ++ [LF] by simp, feedAll_append, hcr,
    feedAll_singleton (feed_lf_afterCr rfl)]
  rfl

/-- R98, R103: with the buffer empty a data byte does in `AfterCr` what it does in `Idle`. -/
theorem feedAll_afterCr_eq_idle {s : State} {b : Byte} (bs : List Byte) (hb : isData b = true) (hst : s.st = .afterCr)
    (hbuf : s.buf = []) : feedAll (b :: bs) s = feedAll (b :: bs) { s with st := .idle } := by
  have hroom : ({ s with st := .idle } : State).buf.length < 9 := by simp [hbuf]
  rw [feedAll_cons (feed_data_afterCr hb hst), feedAll_cons (feed_data_idle hb rfl),
    accumulate_room hroom]

/-- R107: from an empty buffer, in either state of the framer, nine data bytes and a terminator give one outcome. -/
theorem feedAll_nine_of_buf_nil {s : State} {xs : List Byte} {t : Byte} (hbuf : s.buf = []) (hlen : xs.length = 9)
    (hxs : ∀ b ∈ xs, isData b = true) (ht : isData t = false) :
    (feedAll (xs ++ [t]) s).2 = [outcomeOf (decodeFrame Config.funcTable xs)] ∧ (feedAll (xs ++ [t]) s).1.buf = [] := by
  cases hst : s.st with
  | idle =>
    rw [feedAll_nine_terminator s hst hbuf hlen hxs ht]
    exact ⟨rfl, rfl⟩
  | afterCr =>
    have hpos : 0 < xs.length := by omega
    obtain ⟨b, bs, rfl⟩ := List.exists_cons_of_length_pos hpos
    rw [List.cons_append, feedAll_afterCr_eq_idle _ (hxs b List.mem_cons_self) hst hbuf, ← List.cons_append,
      feedAll_nine_terminator { s with st := .idle } rfl hbuf hlen hxs ht]
    exact ⟨rfl, rfl⟩

/-- Settles O53: the first terminator empties the buffer, wherever it finds the framer. -/
theorem terminatorResynchronises : Obligations.TerminatorResynchronises := by
  intro s t1 t2 frame r ht1 ht2 hlen hframe hr
  obtain ⟨s1, hs1⟩ := exists_feed_next t1 s
  obtain ⟨-, hbuf⟩ := feed_terminator_registers ht1 hs1
  obtain ⟨hout, hbuf'⟩ := feedAll_nine_of_buf_nil hbuf hlen hframe ht2
  rw [hr] at hout
  exact ⟨s1, hs1, hout, hbuf'⟩

end Sys2Proof.Machine
end
